-- ==== Sys2Proof/Word.lean ====
section
/-! DEFINITION. The widths of the machine's quantities (00_scope.md R6, R7): bit 0 is the least significant bit. -/

namespace Sys2Proof

/-- A word of memory or an accumulator: 24 bits, sign in bit 23, magnitude in bits 22..0 (R6, R10). -/
abbrev Word := BitVec 24

/-- A word address, an index register or the program counter: 15 bits (R6). -/
abbrev Addr := BitVec 15

/-- The magnitude field of a word, bits 22..0 (R6, R10). -/
abbrev Magnitude := BitVec 23

/-- The opcode field of an instruction word, bits 23..18 (R300). -/
abbrev Opcode := BitVec 6

/-- The accumulated cost counter, 64 bits (R6, R109). -/
abbrev CycleCount := BitVec 64

/-- One byte of a binary image (R220); the block itself has no bytes (R206). -/
abbrev Byte := BitVec 8

/-- An octal digit. The opcode map of R320 is laid out by the two octal digits of the opcode. -/
inductive OctalDigit where
  | d0 | d1 | d2 | d3 | d4 | d5 | d6 | d7
  deriving DecidableEq, Repr

end Sys2Proof
end

