-- ==== Sys2Proof/Machine/SignMagnitude.lean ====
section
/-! DEFINITION. The word algebra of 00_scope.md R10 to R15: sign and magnitude, no two's complement anywhere. -/

namespace Sys2Proof.Machine

open Sys2Proof

/-- `sgn(w) = w[23]` (R10): true for negative. -/
def sgn (w : Word) : Bool :=
  w.getLsbD 23

/-- `mag(w) = w[22:0]` (R10). -/
def mag (w : Word) : Magnitude :=
  w.extractLsb' 0 23

/-- The word of a sign bit and a magnitude, −0 among them. -/
def signMag (s : Bool) (m : Magnitude) : Word :=
  BitVec.ofBool s ++ m

/-- The largest magnitude, 2^23 − 1 (R11). -/
def maxMagnitude : Nat := 2 ^ 23 - 1

/-- `to_signed(w)` (R11): both zeros map to 0. -/
def toSigned (w : Word) : Int :=
  if sgn w then -((mag w).toNat : Int) else ((mag w).toNat : Int)

/-- `from_signed(v)` (R12): the sign of `v` and the low 23 bits of its magnitude, for every integer. -/
def fromSigned (v : Int) : Word :=
  signMag (decide (v < 0)) (BitVec.ofNat 23 v.natAbs)

/-- `smw(s, m)` (R13): the sign is applied to a nonzero magnitude only, so the word is never −0. -/
def smw (s : Bool) (m : Magnitude) : Word :=
  signMag (s && decide (m ≠ 0#23)) m

end Sys2Proof.Machine
end

