-- ==== Sys2Proof/Machine/Flags.lean ====
section
/-! DEFINITION. What the instructions compute for the `overflow` flag, and the conditions they test. No flag holds a condition
(10_state.md R110). -/

namespace Sys2Proof.Machine

open Sys2Proof

/-- ADD and SUB overflow exactly when `|v| > 2^23 − 1` (42_add_sub_logic.md R450, R451, R452). -/
def sumOverflows (v : Int) : Bool :=
  decide (maxMagnitude < v.natAbs)

/-- A divide is improper when `mag(A) >= mag(M)`: magnitudes only (43_multiply_divide.md R472). -/
def divideImproper (a m : Word) : Bool :=
  decide ((mag m).toNat ≤ (mag a).toNat)

/-- The magnitude is zero, whatever the sign bit (R503). -/
def isZero (w : Word) : Bool :=
  decide (mag w = 0#23)

/-- Strictly positive: sign bit clear and magnitude nonzero (R501). -/
def isPlus (w : Word) : Bool :=
  !sgn w && !isZero w

/-- The sign bit is set, −0 included (R502). -/
def isMinus (w : Word) : Bool :=
  sgn w

/-- `to_signed(a) > to_signed(m)`, so the two zeros are equal (R506). -/
def signedGreater (a m : Word) : Bool :=
  decide (toSigned m < toSigned a)

/-- The 24-bit words differ, so the two zeros differ (R507). -/
def wordsDiffer (a m : Word) : Bool :=
  decide (a ≠ m)

end Sys2Proof.Machine
end

