-- ==== Sys2Proof/Config.lean ====
section
/-! DEFINITION. What the spec leaves to the implementation: the two parameters that 00_scope.md R6 marks OPEN. Neither has a
body, so no proof can see a value of it. -/

namespace Sys2Proof

/-- A limit on the nesting of XEC: `some L` of R6 asks for `L >= 1`, which the second field holds. -/
structure DepthLimit where
  levels : Nat
  positive : 1 ≤ levels
  deriving DecidableEq, Repr

/-- DESIGN CHOICE (log 4). `COST_UNIMPL` (R6, decision D5): the cost of a decode error and of the XEC depth limit. -/
opaque Config.costUnimpl : Nat

/-- DESIGN CHOICE (log 5). `XEC_DEPTH_LIMIT` (R6, decision D6): `none`, or `some L` with `L >= 1`. -/
opaque Config.xecDepthLimit : Option DepthLimit

end Sys2Proof
end

