-- ==== Sys2Proof/Machine/State.lean ====
section
/-! DEFINITION. The state of the block (10_state.md R100), the reasons a step can stop, the state after reset, and what an
instruction's rule gives back. Plain data throughout. -/

namespace Sys2Proof.Machine

open Sys2Proof

/-- The store: the words that are not zero, each with its word address, addresses strictly rising (20_memory.md R200). An address
that is not listed reads as 0, the value INIT gives every word (R700). A cell is a word because the block has no smaller access
(R205, R206); log 1. -/
abbrev Memory := List (Nat × Word)

/-- The diagnostic event `DIAG(opcode, fa)` (10_state.md R126). -/
structure Diag where
  opcode : Opcode
  fetchAddr : Addr
  deriving DecidableEq, Repr

/-- The state aggregate of R100. `X[0]` has no storage: it reads as zero and drops writes (R104). -/
structure State where
  /-- Accumulator `A` (R101). -/
  a : Word
  /-- Accumulator `B` (R102). -/
  b : Word
  /-- Index register `X[1]` (R103). -/
  x1 : Addr
  /-- Index register `X[2]` (R103). -/
  x2 : Addr
  /-- Index register `X[3]` (R103). -/
  x3 : Addr
  /-- Program counter `PC` (R105). -/
  pc : Addr
  /-- `memory[0..32767]` (R111). -/
  memory : Memory
  /-- The sticky `overflow` flag (R106). -/
  overflow : Bool
  /-- The `halted` flag (R107). -/
  halted : Bool
  /-- `interrupt_enabled`, stored and never consulted (R108). -/
  interruptEnabled : Bool
  /-- The `cycles` counter (R109). -/
  cycles : CycleCount
  /-- The model's own field (log 8): the DIAG events emitted so far, oldest first, as the external sink has seen them (R126). -/
  diagLog : List Diag
  deriving DecidableEq, Repr

/-- What stops the machine for good. -/
inductive Fault where
  /-- Raised by XEC alone: its chain of XEC words reaches itself and XEC_DEPTH_LIMIT is `none`, so the step never ends
  (47_execute.md R571 (h); 93_implementation_defined.md I8, treatment `stuck`). Safe: the hardware has no next state either. -/
  | xecNeverEnds
  deriving DecidableEq, Repr

/-- What the model gives no meaning to. -/
inductive Refusal where
  /-- An instruction whose arm has no meaning yet. No arm raises it: all 64 rows have their meaning. Safe. -/
  | notModelled (mnemonic : String)
  deriving DecidableEq, Repr

/-- The state right after reset: every field zero, execution at address 0 (R700, R701, R702). Memory is zero because power-on is
INIT (decision D12, log 10). -/
def State.reset : State where
  a := 0#24
  b := 0#24
  x1 := 0#15
  x2 := 0#15
  x3 := 0#15
  pc := 0#15
  memory := []
  overflow := false
  halted := false
  interruptEnabled := false
  cycles := 0#64
  diagLog := []

/-- What an instruction's rule gives: the state after its operation and the cost it returns (40_execution.md R401). The cost is a
natural number; only `cycles` is 64 bits (R402). -/
structure Effect where
  state : State
  cost : Nat
  deriving DecidableEq, Repr

end Sys2Proof.Machine
end

