-- ==== Sys2Proof/Machine/Memory.lean ====
section
/-! DEFINITION. The store's two access primitives, `MemRead` and `MemWrite` (20_memory.md R203, R204), and its canonical form. -/

namespace Sys2Proof.Machine

open Sys2Proof

/-- The number of words of the store (R200). -/
def memWords : Nat := 32768

/-- What an address that is not listed reads as: the zero that INIT gives every word (R700). -/
def unlistedWord : Word := 0#24

/-- The word listed at address `a`, or the value of an unlisted address. -/
def Memory.lookup : Memory → Nat → Word
  | [], _ => unlistedWord
  | (k, w) :: rest, a => if k = a then w else Memory.lookup rest a

/-- `m` with `v` at address `a`, addresses still rising, no entry for a word that reads as an unlisted one. -/
def Memory.insert : Memory → Nat → Word → Memory
  | [], a, v => if v = unlistedWord then [] else [(a, v)]
  | (k, w) :: rest, a, v =>
    if a < k then
      if v = unlistedWord then (k, w) :: rest else (a, v) :: (k, w) :: rest
    else if a = k then
      if v = unlistedWord then rest else (a, v) :: rest
    else (k, w) :: Memory.insert rest a v

/-- `MemRead(addr)` (R203). -/
def Memory.read (m : Memory) (a : Addr) : Word :=
  Memory.lookup m a.toNat

/-- `MemWrite(addr, v)` (R204). -/
def Memory.write (m : Memory) (a : Addr) (v : Word) : Memory :=
  Memory.insert m a.toNat v

/-- The entries rise strictly from `lo`, lie in the store, and none holds the value of an unlisted word. -/
def Memory.wfFrom : Nat → Memory → Bool
  | _, [] => true
  | lo, (k, w) :: rest =>
    decide (lo ≤ k) && decide (k < memWords) && decide (w ≠ unlistedWord) && Memory.wfFrom (k + 1) rest

/-- The canonical form: equal memories are equal lists. -/
def Memory.wf (m : Memory) : Bool :=
  Memory.wfFrom 0 m

end Sys2Proof.Machine
end

