-- ==== Sys2Proof/Syntax.lean ====
section
/-! DEFINITION. The instruction set: one constructor per row of spec/opcode_table.json. Every instruction has the one format
`W24` (30_encoding.md R300), so every constructor carries the same three fields. -/

namespace Sys2Proof

/-- The index selector, instruction bits 16..15, naming `X[0..3]` (R16, R300). -/
inductive IndexReg where
  | x0 | x1 | x2 | x3
  deriving DecidableEq, Repr

/-- The fields of `W24` beside the opcode (R300): the indirect flag `I`, the index selector `X`, the address field `addr`. -/
structure Fields where
  indirect : Bool
  index : IndexReg
  addr : Addr
  deriving DecidableEq, Repr

/-- The instructions: the 28 of R320, then the 36 opcode values of R321, whose execution is a decode error (R404). -/
inductive Instr where
  /-- HLT, halt (R420), opcode 0o00. -/
  | hlt (f : Fields)
  /-- XEC, execute the word at `ea` (R570), opcode 0o02. -/
  | xec (f : Fields)
  /-- STB, store B (R433), opcode 0o03. -/
  | stb (f : Fields)
  /-- STA, store A (R432), opcode 0o05. -/
  | sta (f : Fields)
  /-- ADD, add to A (R450), opcode 0o10. -/
  | add (f : Fields)
  /-- SUB, subtract from A (R451), opcode 0o11. -/
  | sub (f : Fields)
  /-- SKG, skip if A greater (R506), opcode 0o12. -/
  | skg (f : Fields)
  /-- SKN, skip if not equal (R507), opcode 0o13. -/
  | skn (f : Fields)
  /-- ANA, AND to A (R453), opcode 0o15. -/
  | ana (f : Fields)
  /-- ORA, OR to A (R454), opcode 0o16. -/
  | ora (f : Fields)
  /-- ERA, exclusive OR to A (R455), opcode 0o17. -/
  | era (f : Fields)
  /-- LDB, load B (R431), opcode 0o23. -/
  | ldb (f : Fields)
  /-- LDA, load A (R430), opcode 0o24. -/
  | lda (f : Fields)
  /-- JSL, jump and store link (R505), opcode 0o27. -/
  | jsl (f : Fields)
  /-- MPY, multiply (R470), opcode 0o34. -/
  | mpy (f : Fields)
  /-- DIV, divide (R471), opcode 0o35. -/
  | div (f : Fields)
  /-- ARS, A right shift (R550), opcode 0o40. -/
  | ars (f : Fields)
  /-- ALS, A left shift (R551), opcode 0o41. -/
  | als (f : Fields)
  /-- TAB, transfer A to B (R530), opcode 0o55. -/
  | tab (f : Fields)
  /-- LDX, load index register (R532), opcode 0o56. -/
  | ldx (f : Fields)
  /-- IAB, interchange A and B (R531), opcode 0o57. -/
  | iab (f : Fields)
  /-- SIX, store index register (R533), opcode 0o66. -/
  | six (f : Fields)
  /-- JPL, jump if A plus (R501), opcode 0o70. -/
  | jpl (f : Fields)
  /-- JZE, jump if A zero (R503), opcode 0o71. -/
  | jze (f : Fields)
  /-- JMI, jump if A minus (R502), opcode 0o72. -/
  | jmi (f : Fields)
  /-- JNZ, jump if A nonzero (R504), opcode 0o73. -/
  | jnz (f : Fields)
  /-- JMP, jump (R500), opcode 0o74. -/
  | jmp (f : Fields)
  /-- NOP, no operation (R421), opcode 0o77. -/
  | nop (f : Fields)
  /-- Unimplemented opcode 0o01 (R321, R404). -/
  | unimpl01 (f : Fields)
  /-- Unimplemented opcode 0o04 (R321, R404). -/
  | unimpl04 (f : Fields)
  /-- Unimplemented opcode 0o06 (R321, R404). -/
  | unimpl06 (f : Fields)
  /-- Unimplemented opcode 0o07 (R321, R404). -/
  | unimpl07 (f : Fields)
  /-- Unimplemented opcode 0o14 (R321, R404). -/
  | unimpl14 (f : Fields)
  /-- Unimplemented opcode 0o20 (R321, R404). -/
  | unimpl20 (f : Fields)
  /-- Unimplemented opcode 0o21 (R321, R404). -/
  | unimpl21 (f : Fields)
  /-- Unimplemented opcode 0o22 (R321, R404). -/
  | unimpl22 (f : Fields)
  /-- Unimplemented opcode 0o25 (R321, R404). -/
  | unimpl25 (f : Fields)
  /-- Unimplemented opcode 0o26 (R321, R404). -/
  | unimpl26 (f : Fields)
  /-- Unimplemented opcode 0o30 (R321, R404). -/
  | unimpl30 (f : Fields)
  /-- Unimplemented opcode 0o31 (R321, R404). -/
  | unimpl31 (f : Fields)
  /-- Unimplemented opcode 0o32 (R321, R404). -/
  | unimpl32 (f : Fields)
  /-- Unimplemented opcode 0o33 (R321, R404). -/
  | unimpl33 (f : Fields)
  /-- Unimplemented opcode 0o36 (R321, R404). -/
  | unimpl36 (f : Fields)
  /-- Unimplemented opcode 0o37 (R321, R404). -/
  | unimpl37 (f : Fields)
  /-- Unimplemented opcode 0o42 (R321, R404). -/
  | unimpl42 (f : Fields)
  /-- Unimplemented opcode 0o43 (R321, R404). -/
  | unimpl43 (f : Fields)
  /-- Unimplemented opcode 0o44 (R321, R404). -/
  | unimpl44 (f : Fields)
  /-- Unimplemented opcode 0o45 (R321, R404). -/
  | unimpl45 (f : Fields)
  /-- Unimplemented opcode 0o46 (R321, R404). -/
  | unimpl46 (f : Fields)
  /-- Unimplemented opcode 0o47 (R321, R404). -/
  | unimpl47 (f : Fields)
  /-- Unimplemented opcode 0o50 (R321, R404). -/
  | unimpl50 (f : Fields)
  /-- Unimplemented opcode 0o51 (R321, R404). -/
  | unimpl51 (f : Fields)
  /-- Unimplemented opcode 0o52 (R321, R404). -/
  | unimpl52 (f : Fields)
  /-- Unimplemented opcode 0o53 (R321, R404). -/
  | unimpl53 (f : Fields)
  /-- Unimplemented opcode 0o54 (R321, R404). -/
  | unimpl54 (f : Fields)
  /-- Unimplemented opcode 0o60 (R321, R404). -/
  | unimpl60 (f : Fields)
  /-- Unimplemented opcode 0o61 (R321, R404). -/
  | unimpl61 (f : Fields)
  /-- Unimplemented opcode 0o62 (R321, R404). -/
  | unimpl62 (f : Fields)
  /-- Unimplemented opcode 0o63 (R321, R404). -/
  | unimpl63 (f : Fields)
  /-- Unimplemented opcode 0o64 (R321, R404). -/
  | unimpl64 (f : Fields)
  /-- Unimplemented opcode 0o65 (R321, R404). -/
  | unimpl65 (f : Fields)
  /-- Unimplemented opcode 0o67 (R321, R404). -/
  | unimpl67 (f : Fields)
  /-- Unimplemented opcode 0o75 (R321, R404). -/
  | unimpl75 (f : Fields)
  /-- Unimplemented opcode 0o76 (R321, R404). -/
  | unimpl76 (f : Fields)
  deriving DecidableEq, Repr

/-- The fields an instruction carries; they are decoded for every opcode (R302). -/
def Instr.fields : Instr → Fields
  | .hlt f | .xec f | .stb f | .sta f
  | .add f | .sub f | .skg f | .skn f
  | .ana f | .ora f | .era f | .ldb f
  | .lda f | .jsl f | .mpy f | .div f
  | .ars f | .als f | .tab f | .ldx f
  | .iab f | .six f | .jpl f | .jze f
  | .jmi f | .jnz f | .jmp f | .nop f
  | .unimpl01 f | .unimpl04 f | .unimpl06 f | .unimpl07 f
  | .unimpl14 f | .unimpl20 f | .unimpl21 f | .unimpl22 f
  | .unimpl25 f | .unimpl26 f | .unimpl30 f | .unimpl31 f
  | .unimpl32 f | .unimpl33 f | .unimpl36 f | .unimpl37 f
  | .unimpl42 f | .unimpl43 f | .unimpl44 f | .unimpl45 f
  | .unimpl46 f | .unimpl47 f | .unimpl50 f | .unimpl51 f
  | .unimpl52 f | .unimpl53 f | .unimpl54 f | .unimpl60 f
  | .unimpl61 f | .unimpl62 f | .unimpl63 f | .unimpl64 f
  | .unimpl65 f | .unimpl67 f | .unimpl75 f | .unimpl76 f
    => f

end Sys2Proof
end

