-- ==== Sys2Proof/Machine/Ops.lean ====
section
/-! DEFINITION. The named operations over the state: registers, memory, the program counter, the fetch, the decode-error outcome,
and the accounting of cost. Every instruction reaches the state through these. -/

namespace Sys2Proof.Machine

open Sys2Proof

/-! ### Registers and flags -/

/-- `A <- v` (R101). -/
def State.setA (s : State) (v : Word) : State :=
  { s with a := v }

/-- `B <- v` (R102). -/
def State.setB (s : State) (v : Word) : State :=
  { s with b := v }

/-- Reading an index register: `X[0]` reads as zero at all times (R104). -/
def State.readX (s : State) : IndexReg → Addr
  | .x0 => 0#15
  | .x1 => s.x1
  | .x2 => s.x2
  | .x3 => s.x3

/-- Writing an index register: a write to `X[0]` is dropped (R104). -/
def State.writeX (s : State) (r : IndexReg) (v : Addr) : State :=
  match r with
  | .x0 => s
  | .x1 => { s with x1 := v }
  | .x2 => { s with x2 := v }
  | .x3 => { s with x3 := v }

/-- `PC <- target` (R9, R105). -/
def State.setPc (s : State) (target : Addr) : State :=
  { s with pc := target }

/-- Setting the sticky `overflow` flag where `c` holds; it is never cleared here (R106). -/
def State.orOverflow (s : State) (c : Bool) : State :=
  { s with overflow := s.overflow || c }

/-- Writing the `halted` flag (R107). -/
def State.setHalted (s : State) (h : Bool) : State :=
  { s with halted := h }

/-- Emitting a diagnostic event: the sink sees it, the block's state is unchanged (R126; log 8). -/
def State.emitDiag (s : State) (d : Diag) : State :=
  { s with diagLog := s.diagLog ++ [d] }

/-- `cycles <- (cycles + c) mod 2^64` (R400, decision D7). -/
def State.addCycles (s : State) (c : Nat) : State :=
  { s with cycles := s.cycles + BitVec.ofNat 64 c }

/-! ### Memory -/

/-- `MemRead(addr)` on the machine's store (R203): no side effect. -/
def State.load (s : State) (a : Addr) : Word :=
  s.memory.read a

/-- `MemWrite(addr, v)` on the machine's store (R204). -/
def State.store (s : State) (a : Addr) (v : Word) : State :=
  { s with memory := s.memory.write a v }

/-! ### The program counter and the fetch -/

/-- `PC <- (PC + 1) mod 32768`: the increment of R401, and a taken skip (R506, R507). -/
def State.advance (s : State) : State :=
  s.setPc (s.pc + 1#15)

/-- The instruction word at the fetch address (R401). -/
def State.fetchWord (s : State) : Word :=
  s.load s.pc

/-- The fetch address of the instruction being performed: `PC` is `fa + 1` while its rule runs (R401). -/
def State.fetchAddr (s : State) : Addr :=
  s.pc - 1#15

/-! ### The decode-error outcome

The block has no trap (60_exceptions.md R601): nothing is saved and control goes nowhere. What an error that stops the machine does
is this one operation. Only the host resumes after it (R605; Machine/Commands.lean). -/

/-- `DecodeError(op, fa)` (40_execution.md R404), and with the XEC opcode `XecLimit(fa)` (47_execute.md R572): the machine halts,
the event names the opcode and the fetch address, `PC` stays `fa + 1`, the cost is `COST_UNIMPL`. -/
def State.decodeError (s : State) (op : Opcode) : Effect where
  state := (s.setHalted true).emitDiag ⟨op, s.fetchAddr⟩
  cost := Config.costUnimpl

/-! ### Cost -/

/-- The state after a step that had this effect: `cycles` grows once, by the step's whole cost (R400, R402, decision D4). -/
def Effect.commit (e : Effect) : State :=
  e.state.addCycles e.cost

/-- The same effect at `c` more cost units. -/
def Effect.addCost (e : Effect) (c : Nat) : Effect where
  state := e.state
  cost := c + e.cost

/-- The outcome of an instruction whose rule had this effect. -/
def settle (e : Effect) : Host.Outcome State Fault Refusal :=
  .next e.commit

end Sys2Proof.Machine
end

