-- ==== Sys2Proof/Machine/Operands.lean ====
section
/-! DEFINITION. The effective-address unit (30_encoding.md R310) and the operand forms (R311). -/

namespace Sys2Proof.Machine

open Sys2Proof

/-- The address after indexing: `(addr + X[X]) mod 32768`; `X[0]` reads 0, so selector 0 means no indexing (R310). -/
def indexedAddress (f : Fields) (s : State) : Addr :=
  f.addr + s.readX f.index

/-- The low 15 bits of a word: an address held in memory (R310, R532). -/
def addressPart (w : Word) : Addr :=
  w.extractLsb' 0 15

/-- The effective address `ea` (R310): indexing first, then one level of indirection, the pointer's bits 23..15 ignored. -/
def effectiveAddress (f : Fields) (s : State) : Addr :=
  if f.indirect then addressPart (s.load (indexedAddress f s)) else indexedAddress f s

/-- The memory operand `M = MemRead(ea)` (R311). -/
def operandM (f : Fields) (s : State) : Word :=
  s.load (effectiveAddress f s)

/-- The shift count `ea[4:0]`, 0 to 31 (R311). -/
def shiftCount (f : Fields) (s : State) : Nat :=
  ((effectiveAddress f s).extractLsb' 0 5).toNat

/-- A 15-bit value as a word to store, bits 23..15 zero (20_memory.md R202). -/
def wordOfAddr (a : Addr) : Word :=
  a.setWidth 24

end Sys2Proof.Machine
end

