-- ==== Sys2Proof/Machine/Arithmetic.lean ====
section
/-! DEFINITION. ADD and SUB (42_add_sub_logic.md R450, R451): exact integers through `to_signed` and `from_signed`, sticky overflow. -/

namespace Sys2Proof.Machine

open Sys2Proof

/-- What ADD and SUB do with their exact result `v`: `overflow <- 1` if it is out of range, `A <- from_signed(v)`. DEDUCED (log 7): the
word that `A` holds after an overflow is the spec's own reading (R450, 93_implementation_defined.md I3). -/
def State.takeSum (s : State) (v : Int) : State :=
  (s.orOverflow (sumOverflows v)).setA (fromSigned v)

/-- ADD (R450): `A <- A + M`, signed. Cost 10. -/
def addRule (f : Fields) (s : State) : Effect where
  state := s.takeSum (toSigned s.a + toSigned (operandM f s))
  cost := 10

/-- `ADD` as an instruction of its own (R450). -/
def execAdd (f : Fields) (s : State) : Host.Outcome State Fault Refusal :=
  settle (addRule f s)

/-- SUB (R451): `A <- A - M`, signed. Cost 10. -/
def subRule (f : Fields) (s : State) : Effect where
  state := s.takeSum (toSigned s.a - toSigned (operandM f s))
  cost := 10

/-- `SUB` as an instruction of its own (R451). -/
def execSub (f : Fields) (s : State) : Host.Outcome State Fault Refusal :=
  settle (subRule f s)

end Sys2Proof.Machine
end

