-- ==== Sys2Proof/Machine/Control.lean ====
section
/-! DEFINITION. HLT and NOP (40_execution.md R420, R421). Their fields form `ea` as in every instruction (R302); the pointer read that `I = 1` makes
has no effect (R203). -/

namespace Sys2Proof.Machine

open Sys2Proof

/-- HLT (R420): `halted <- 1` and `PC` back to the fetch address. Cost 5. -/
def hltRule (_f : Fields) (s : State) : Effect where
  state := (s.setHalted true).setPc (s.pc - 1#15)
  cost := 5

/-- `HLT` as an instruction of its own (R420). -/
def execHlt (f : Fields) (s : State) : Host.Outcome State Fault Refusal :=
  settle (hltRule f s)

/-- NOP (R421): no effect. Cost 5. -/
def nopRule (_f : Fields) (s : State) : Effect where
  state := s
  cost := 5

/-- `NOP` as an instruction of its own (R421). -/
def execNop (f : Fields) (s : State) : Host.Outcome State Fault Refusal :=
  settle (nopRule f s)

end Sys2Proof.Machine
end

