-- ==== Sys2Proof/WellFormed.lean ====
section
/-! DEFINITION. What fits the format `W24`. "For the 28 implemented opcodes every value of I, X and addr is legal" (30_encoding.md
R322), and the 36 others are instructions too (a decode error, R404). So the check that can fail is on the four NUMBERS of an
instruction as R330 writes it, before they are fields. -/

namespace Sys2Proof

/-- An instruction written as four numbers, `op << 18 | I << 17 | x << 15 | addr` (R330). -/
structure RawInstr where
  op : Nat
  indirect : Nat
  index : Nat
  addr : Nat
  deriving DecidableEq, Repr

/-- Which number does not fit its field of R300. -/
inductive IllFormed where
  | opcodeTooWide
  | indirectNotABit
  | noSuchIndexRegister
  | addressTooWide
  deriving DecidableEq, Repr

/-- The first number that does not fit its field (R300: 6, 1, 2 and 15 bits). -/
def RawInstr.check (r : RawInstr) : Option IllFormed :=
  if 64 ≤ r.op then some .opcodeTooWide
  else if 2 ≤ r.indirect then some .indirectNotABit
  else if 4 ≤ r.index then some .noSuchIndexRegister
  else if 32768 ≤ r.addr then some .addressTooWide
  else none

/-- Every number fits its field. -/
def RawInstr.wellFormed (r : RawInstr) : Bool :=
  r.check == none

/-- The number the four fields make together (R330). -/
def RawInstr.value (r : RawInstr) : Nat :=
  r.op * 2 ^ 18 + r.indirect * 2 ^ 17 + r.index * 2 ^ 15 + r.addr

/-- The selector number of an index register (R16). -/
def IndexReg.number : IndexReg → Nat
  | .x0 => 0
  | .x1 => 1
  | .x2 => 2
  | .x3 => 3

/-- An instruction's fields as numbers, beside an opcode number. -/
def Fields.toRaw (op : Nat) (f : Fields) : RawInstr where
  op := op
  indirect := f.indirect.toNat
  index := f.index.number
  addr := f.addr.toNat

/-- The fields of an instruction fit `W24`. By R322 no instruction fails this (`Sys2Proof.Laws.wellFormed_all`). -/
def Instr.wellFormed (i : Instr) : Bool :=
  (i.fields.toRaw 0).wellFormed

end Sys2Proof
end

