-- ==== Sys2Proof/Decode.lean ====
section
/-! DEFINITION. The decoder of `W24` words, total on every word (30_encoding.md R300, R320, R321), the decoder of a run of bytes,
and the encoder written from the same table. -/

namespace Sys2Proof

/-! ### Decoding -/

/-- The octal digit of three bits, the most significant first. -/
def octalDigit (b2 b1 b0 : Bool) : OctalDigit :=
  match b2, b1, b0 with
  | false, false, false => .d0
  | false, false, true => .d1
  | false, true, false => .d2
  | false, true, true => .d3
  | true, false, false => .d4
  | true, false, true => .d5
  | true, true, false => .d6
  | true, true, true => .d7

/-- The high octal digit of the opcode, bits 23..21 of the word (R300). -/
def opcodeHigh (w : Word) : OctalDigit :=
  octalDigit (w.getLsbD 23) (w.getLsbD 22) (w.getLsbD 21)

/-- The low octal digit of the opcode, bits 20..18 of the word (R300). -/
def opcodeLow (w : Word) : OctalDigit :=
  octalDigit (w.getLsbD 20) (w.getLsbD 19) (w.getLsbD 18)

/-- The index register that selector bits 16 and 15 name (R300). -/
def indexOfBits (b1 b0 : Bool) : IndexReg :=
  match b1, b0 with
  | false, false => .x0
  | false, true => .x1
  | true, false => .x2
  | true, true => .x3

/-- `I = instr[17]`, `X = instr[16:15]`, `addr = instr[14:0]` (R300). -/
def decodeFields (w : Word) : Fields where
  indirect := w.getLsbD 17
  index := indexOfBits (w.getLsbD 16) (w.getLsbD 15)
  addr := w.extractLsb' 0 15

/-- The opcode map of R320, row by row: first octal digit, then second. The dashes of that map are the 36 values of R321. -/
def instrOfOpcode (high low : OctalDigit) (f : Fields) : Instr :=
  match high, low with
  | .d0, .d0 => .hlt f
  | .d0, .d1 => .unimpl01 f
  | .d0, .d2 => .xec f
  | .d0, .d3 => .stb f
  | .d0, .d4 => .unimpl04 f
  | .d0, .d5 => .sta f
  | .d0, .d6 => .unimpl06 f
  | .d0, .d7 => .unimpl07 f
  | .d1, .d0 => .add f
  | .d1, .d1 => .sub f
  | .d1, .d2 => .skg f
  | .d1, .d3 => .skn f
  | .d1, .d4 => .unimpl14 f
  | .d1, .d5 => .ana f
  | .d1, .d6 => .ora f
  | .d1, .d7 => .era f
  | .d2, .d0 => .unimpl20 f
  | .d2, .d1 => .unimpl21 f
  | .d2, .d2 => .unimpl22 f
  | .d2, .d3 => .ldb f
  | .d2, .d4 => .lda f
  | .d2, .d5 => .unimpl25 f
  | .d2, .d6 => .unimpl26 f
  | .d2, .d7 => .jsl f
  | .d3, .d0 => .unimpl30 f
  | .d3, .d1 => .unimpl31 f
  | .d3, .d2 => .unimpl32 f
  | .d3, .d3 => .unimpl33 f
  | .d3, .d4 => .mpy f
  | .d3, .d5 => .div f
  | .d3, .d6 => .unimpl36 f
  | .d3, .d7 => .unimpl37 f
  | .d4, .d0 => .ars f
  | .d4, .d1 => .als f
  | .d4, .d2 => .unimpl42 f
  | .d4, .d3 => .unimpl43 f
  | .d4, .d4 => .unimpl44 f
  | .d4, .d5 => .unimpl45 f
  | .d4, .d6 => .unimpl46 f
  | .d4, .d7 => .unimpl47 f
  | .d5, .d0 => .unimpl50 f
  | .d5, .d1 => .unimpl51 f
  | .d5, .d2 => .unimpl52 f
  | .d5, .d3 => .unimpl53 f
  | .d5, .d4 => .unimpl54 f
  | .d5, .d5 => .tab f
  | .d5, .d6 => .ldx f
  | .d5, .d7 => .iab f
  | .d6, .d0 => .unimpl60 f
  | .d6, .d1 => .unimpl61 f
  | .d6, .d2 => .unimpl62 f
  | .d6, .d3 => .unimpl63 f
  | .d6, .d4 => .unimpl64 f
  | .d6, .d5 => .unimpl65 f
  | .d6, .d6 => .six f
  | .d6, .d7 => .unimpl67 f
  | .d7, .d0 => .jpl f
  | .d7, .d1 => .jze f
  | .d7, .d2 => .jmi f
  | .d7, .d3 => .jnz f
  | .d7, .d4 => .jmp f
  | .d7, .d5 => .unimpl75 f
  | .d7, .d6 => .unimpl76 f
  | .d7, .d7 => .nop f

/-- Decoding a word: it is selected by the opcode alone (R320) and needs only the word itself (R301). -/
def decode (w : Word) : Instr :=
  instrOfOpcode (opcodeHigh w) (opcodeLow w) (decodeFields w)

/-- Why a run of bytes holds no instruction. -/
inductive DecodeReject where
  /-- The run is empty. -/
  | noBytes
  /-- The run ends inside a word: an instruction is one whole word (R301), three bytes of an image (R220). -/
  | incompleteWord
  deriving DecidableEq, Repr

/-- The word of three image bytes, big-endian: `(b0 << 16) | (b1 << 8) | b2` (R220). -/
def wordOfBytes (b0 b1 b2 : Byte) : Word :=
  b0 ++ (b1 ++ b2)

/-- Decoding the first word of an image's bytes; the rest is handed back (R220, R301). -/
def decodeBytes : List Byte → Except DecodeReject (Instr × List Byte)
  | [] => .error .noBytes
  | [_] => .error .incompleteWord
  | [_, _] => .error .incompleteWord
  | b0 :: b1 :: b2 :: rest => .ok (decode (wordOfBytes b0 b1 b2), rest)

/-- The word whose bits are `w`'s low `nbits` bits, every higher bit 0. -/
def wordOfTable (nbits w : Nat) : Word :=
  BitVec.ofNat 24 (w % 2 ^ nbits)

/-- The instruction of an opcode-table word. An instruction is one word of 24 bits, so more than 24 bits are refused. -/
def decodeTableWord (nbits w : Nat) : Option Instr :=
  if nbits ≤ 24 then some (decode (wordOfTable nbits w)) else none

/-! ### Encoding -/

/-- The opcode of an instruction, as the octal column of the table gives it (R320, R321). -/
def Instr.opcode : Instr → Opcode
  | .hlt _ => 0o00#6
  | .xec _ => 0o02#6
  | .stb _ => 0o03#6
  | .sta _ => 0o05#6
  | .add _ => 0o10#6
  | .sub _ => 0o11#6
  | .skg _ => 0o12#6
  | .skn _ => 0o13#6
  | .ana _ => 0o15#6
  | .ora _ => 0o16#6
  | .era _ => 0o17#6
  | .ldb _ => 0o23#6
  | .lda _ => 0o24#6
  | .jsl _ => 0o27#6
  | .mpy _ => 0o34#6
  | .div _ => 0o35#6
  | .ars _ => 0o40#6
  | .als _ => 0o41#6
  | .tab _ => 0o55#6
  | .ldx _ => 0o56#6
  | .iab _ => 0o57#6
  | .six _ => 0o66#6
  | .jpl _ => 0o70#6
  | .jze _ => 0o71#6
  | .jmi _ => 0o72#6
  | .jnz _ => 0o73#6
  | .jmp _ => 0o74#6
  | .nop _ => 0o77#6
  | .unimpl01 _ => 0o01#6
  | .unimpl04 _ => 0o04#6
  | .unimpl06 _ => 0o06#6
  | .unimpl07 _ => 0o07#6
  | .unimpl14 _ => 0o14#6
  | .unimpl20 _ => 0o20#6
  | .unimpl21 _ => 0o21#6
  | .unimpl22 _ => 0o22#6
  | .unimpl25 _ => 0o25#6
  | .unimpl26 _ => 0o26#6
  | .unimpl30 _ => 0o30#6
  | .unimpl31 _ => 0o31#6
  | .unimpl32 _ => 0o32#6
  | .unimpl33 _ => 0o33#6
  | .unimpl36 _ => 0o36#6
  | .unimpl37 _ => 0o37#6
  | .unimpl42 _ => 0o42#6
  | .unimpl43 _ => 0o43#6
  | .unimpl44 _ => 0o44#6
  | .unimpl45 _ => 0o45#6
  | .unimpl46 _ => 0o46#6
  | .unimpl47 _ => 0o47#6
  | .unimpl50 _ => 0o50#6
  | .unimpl51 _ => 0o51#6
  | .unimpl52 _ => 0o52#6
  | .unimpl53 _ => 0o53#6
  | .unimpl54 _ => 0o54#6
  | .unimpl60 _ => 0o60#6
  | .unimpl61 _ => 0o61#6
  | .unimpl62 _ => 0o62#6
  | .unimpl63 _ => 0o63#6
  | .unimpl64 _ => 0o64#6
  | .unimpl65 _ => 0o65#6
  | .unimpl67 _ => 0o67#6
  | .unimpl75 _ => 0o75#6
  | .unimpl76 _ => 0o76#6

/-- The selector bits of an index register (R300). -/
def IndexReg.bits : IndexReg → BitVec 2
  | .x0 => 0#2
  | .x1 => 1#2
  | .x2 => 2#2
  | .x3 => 3#2

/-- The 18 bits below the opcode (R300). -/
def encodeFields (f : Fields) : BitVec 18 :=
  BitVec.ofBool f.indirect ++ (f.index.bits ++ f.addr)

/-- The word of an instruction: `op << 18 | I << 17 | X << 15 | addr` (R300, R330). -/
def encode (i : Instr) : Word :=
  i.opcode ++ encodeFields i.fields

/-- The instruction that a raw line's four numbers name, refused by name if one of them does not fit its field (R300, R330). -/
def RawInstr.toInstr (r : RawInstr) : Except IllFormed Instr :=
  match r.check with
  | some why => .error why
  | none => .ok (decode (BitVec.ofNat 24 r.value))

end Sys2Proof
end

