-- ==== Sys2Proof/Machine/Jump.lean ====
section
/-! DEFINITION. Jumps and the subroutine link (44_control_transfer.md R500 to R505). `PC` is `fa + 1` while a rule runs. -/

namespace Sys2Proof.Machine

open Sys2Proof

/-- `PC <- ea` where the condition holds (R500 to R504). -/
def State.jumpIf (s : State) (c : Bool) (target : Addr) : State :=
  if c then s.setPc target else s

/-- JMP (R500): `PC <- ea`. Cost 5. -/
def jmpRule (f : Fields) (s : State) : Effect where
  state := s.setPc (effectiveAddress f s)
  cost := 5

/-- `JMP` as an instruction of its own (R500). -/
def execJmp (f : Fields) (s : State) : Host.Outcome State Fault Refusal :=
  settle (jmpRule f s)

/-- JPL (R501): jump if `A` is strictly positive. Cost 6. -/
def jplRule (f : Fields) (s : State) : Effect where
  state := s.jumpIf (isPlus s.a) (effectiveAddress f s)
  cost := 6

/-- `JPL` as an instruction of its own (R501). -/
def execJpl (f : Fields) (s : State) : Host.Outcome State Fault Refusal :=
  settle (jplRule f s)

/-- JMI (R502): jump if the sign bit of `A` is set. Cost 6. -/
def jmiRule (f : Fields) (s : State) : Effect where
  state := s.jumpIf (isMinus s.a) (effectiveAddress f s)
  cost := 6

/-- `JMI` as an instruction of its own (R502). -/
def execJmi (f : Fields) (s : State) : Host.Outcome State Fault Refusal :=
  settle (jmiRule f s)

/-- JZE (R503): jump if the magnitude of `A` is zero. Cost 6. -/
def jzeRule (f : Fields) (s : State) : Effect where
  state := s.jumpIf (isZero s.a) (effectiveAddress f s)
  cost := 6

/-- `JZE` as an instruction of its own (R503). -/
def execJze (f : Fields) (s : State) : Host.Outcome State Fault Refusal :=
  settle (jzeRule f s)

/-- JNZ (R504): jump if the magnitude of `A` is nonzero. Cost 6. -/
def jnzRule (f : Fields) (s : State) : Effect where
  state := s.jumpIf (!isZero s.a) (effectiveAddress f s)
  cost := 6

/-- `JNZ` as an instruction of its own (R504). -/
def execJnz (f : Fields) (s : State) : Host.Outcome State Fault Refusal :=
  settle (jnzRule f s)

/-- JSL (R505): the return address to the word at `ea`, then `PC <- (ea + 1) mod 32768`. Cost 10. -/
def jslRule (f : Fields) (s : State) : Effect where
  state := (s.store (effectiveAddress f s) (wordOfAddr s.pc)).setPc (effectiveAddress f s + 1#15)
  cost := 10

/-- `JSL` as an instruction of its own (R505). -/
def execJsl (f : Fields) (s : State) : Host.Outcome State Fault Refusal :=
  settle (jslRule f s)

end Sys2Proof.Machine
end

