-- ==== Sys2Proof/Machine/LoadStore.lean ====
section
/-! DEFINITION. Loads and stores (41_load_store.md): whole words, sign and magnitude copied as they are. -/

namespace Sys2Proof.Machine

open Sys2Proof

/-- LDA (R430): `A <- MemRead(ea)`. Cost 10. -/
def ldaRule (f : Fields) (s : State) : Effect where
  state := s.setA (operandM f s)
  cost := 10

/-- `LDA` as an instruction of its own (R430). -/
def execLda (f : Fields) (s : State) : Host.Outcome State Fault Refusal :=
  settle (ldaRule f s)

/-- LDB (R431): `B <- MemRead(ea)`. Cost 10. -/
def ldbRule (f : Fields) (s : State) : Effect where
  state := s.setB (operandM f s)
  cost := 10

/-- `LDB` as an instruction of its own (R431). -/
def execLdb (f : Fields) (s : State) : Host.Outcome State Fault Refusal :=
  settle (ldbRule f s)

/-- STA (R432): `MemWrite(ea, A)`. Cost 10. -/
def staRule (f : Fields) (s : State) : Effect where
  state := s.store (effectiveAddress f s) s.a
  cost := 10

/-- `STA` as an instruction of its own (R432). -/
def execSta (f : Fields) (s : State) : Host.Outcome State Fault Refusal :=
  settle (staRule f s)

/-- STB (R433): `MemWrite(ea, B)`. Cost 10. -/
def stbRule (f : Fields) (s : State) : Effect where
  state := s.store (effectiveAddress f s) s.b
  cost := 10

/-- `STB` as an instruction of its own (R433). -/
def execStb (f : Fields) (s : State) : Host.Outcome State Fault Refusal :=
  settle (stbRule f s)

end Sys2Proof.Machine
end

