-- ==== Sys2Proof/Machine/Logic.lean ====
section
/-! DEFINITION. The logical operations (42_add_sub_logic.md R453 to R455): bitwise over all 24 bits, sign bit included, no flag. -/

namespace Sys2Proof.Machine

open Sys2Proof

/-- ANA (R453): `A <- A and M`. Cost 10. -/
def anaRule (f : Fields) (s : State) : Effect where
  state := s.setA (s.a &&& operandM f s)
  cost := 10

/-- `ANA` as an instruction of its own (R453). -/
def execAna (f : Fields) (s : State) : Host.Outcome State Fault Refusal :=
  settle (anaRule f s)

/-- ORA (R454): `A <- A or M`. Cost 10. -/
def oraRule (f : Fields) (s : State) : Effect where
  state := s.setA (s.a ||| operandM f s)
  cost := 10

/-- `ORA` as an instruction of its own (R454). -/
def execOra (f : Fields) (s : State) : Host.Outcome State Fault Refusal :=
  settle (oraRule f s)

/-- ERA (R455): `A <- A xor M`. Cost 10. -/
def eraRule (f : Fields) (s : State) : Effect where
  state := s.setA (s.a ^^^ operandM f s)
  cost := 10

/-- `ERA` as an instruction of its own (R455). -/
def execEra (f : Fields) (s : State) : Host.Outcome State Fault Refusal :=
  settle (eraRule f s)

end Sys2Proof.Machine
end

