-- ==== Sys2Proof/Machine/MultiplyDivide.lean ====
section
/-! DEFINITION. MPY and DIV (43_multiply_divide.md R470 to R472): the pair `A:B` is one sign-magnitude quantity of 46 magnitude bits. -/

namespace Sys2Proof.Machine

open Sys2Proof

/-- The product of two words as the pair `(A, B)` (R470): one sign for both halves, applied only when the product is nonzero. -/
def product (b m : Word) : Word × Word :=
  let p := (mag b).toNat * (mag m).toNat
  let negative := decide (p ≠ 0) && (sgn b ^^ sgn m)
  (signMag negative (BitVec.ofNat 23 (p / 2 ^ 23)), signMag negative (BitVec.ofNat 23 p))

/-- The dividend's magnitude, `(am << 23) | mag(B)`: the sign bit of `B` is ignored (R471). -/
def dividend (a b : Word) : Nat :=
  (mag a).toNat * 2 ^ 23 + (mag b).toNat

/-- The quotient of a proper divide (R471): truncated toward zero, its sign applied only if it is nonzero. -/
def quotient (a b m : Word) : Word :=
  smw (sgn a ^^ sgn m) (BitVec.ofNat 23 (dividend a b / (mag m).toNat))

/-- The remainder of a proper divide (R471): the dividend's sign, applied only if it is nonzero. -/
def remainder (a b m : Word) : Word :=
  smw (sgn a) (BitVec.ofNat 23 (dividend a b % (mag m).toNat))

/-- MPY (R470): `A:B <- B * M`; the old `A` is not read, no flag is written. Cost 28. -/
def mpyRule (f : Fields) (s : State) : Effect where
  state := (s.setA (product s.b (operandM f s)).1).setB (product s.b (operandM f s)).2
  cost := 28

/-- `MPY` as an instruction of its own (R470). -/
def execMpy (f : Fields) (s : State) : Host.Outcome State Fault Refusal :=
  settle (mpyRule f s)

/-- DIV (R471, R472): improper, `overflow <- 1` and `A`, `B` unchanged; proper, quotient to `B` and remainder to `A`, both from the
values before either is written. Cost 44 either way. -/
def divRule (f : Fields) (s : State) : Effect where
  state := if divideImproper s.a (operandM f s) then s.orOverflow true
    else (s.setA (remainder s.a s.b (operandM f s))).setB (quotient s.a s.b (operandM f s))
  cost := 44

/-- `DIV` as an instruction of its own (R471). -/
def execDiv (f : Fields) (s : State) : Host.Outcome State Fault Refusal :=
  settle (divRule f s)

end Sys2Proof.Machine
end

