-- ==== Sys2Proof/Machine/Shift.lean ====
section
/-! DEFINITION. The shifts (46_shifts.md R550, R551): the 23 magnitude bits move, the sign bit stays, no flag is written. -/

namespace Sys2Proof.Machine

open Sys2Proof

/-- ARS (R550): the magnitude of `A` right by `n = ea[4:0]`, zeros in. Cost 5 + n. -/
def arsRule (f : Fields) (s : State) : Effect where
  state := s.setA (signMag (sgn s.a) (mag s.a >>> shiftCount f s))
  cost := 5 + shiftCount f s

/-- `ARS` as an instruction of its own (R550). -/
def execArs (f : Fields) (s : State) : Host.Outcome State Fault Refusal :=
  settle (arsRule f s)

/-- ALS (R551): the magnitude of `A` left by `n = ea[4:0]`, cut to 23 bits. Cost 5 + n. -/
def alsRule (f : Fields) (s : State) : Effect where
  state := s.setA (signMag (sgn s.a) (mag s.a <<< shiftCount f s))
  cost := 5 + shiftCount f s

/-- `ALS` as an instruction of its own (R551). -/
def execAls (f : Fields) (s : State) : Host.Outcome State Fault Refusal :=
  settle (alsRule f s)

end Sys2Proof.Machine
end

