-- ==== Sys2Proof/Machine/Skip.lean ====
section
/-! DEFINITION. The skips (44_control_transfer.md R506, R507): a taken skip advances `PC` by one more word. -/

namespace Sys2Proof.Machine

open Sys2Proof

/-- `PC <- (PC + 1) mod 32768` where the condition holds (R506, R507). -/
def State.skipIf (s : State) (c : Bool) : State :=
  if c then s.advance else s

/-- SKG (R506): skip if `to_signed(A) > to_signed(M)`. Cost 10. -/
def skgRule (f : Fields) (s : State) : Effect where
  state := s.skipIf (signedGreater s.a (operandM f s))
  cost := 10

/-- `SKG` as an instruction of its own (R506). -/
def execSkg (f : Fields) (s : State) : Host.Outcome State Fault Refusal :=
  settle (skgRule f s)

/-- SKN (R507): skip if the words `A` and `M` differ. Cost 10. -/
def sknRule (f : Fields) (s : State) : Effect where
  state := s.skipIf (wordsDiffer s.a (operandM f s))
  cost := 10

/-- `SKN` as an instruction of its own (R507). -/
def execSkn (f : Fields) (s : State) : Host.Outcome State Fault Refusal :=
  settle (sknRule f s)

end Sys2Proof.Machine
end

