-- ==== Sys2Proof/Machine/Transfer.lean ====
section
/-! DEFINITION. Register transfers and index registers (45_register_transfer.md R530 to R533). The selector of LDX and SIX is both the index of
`ea` and the operand register. -/

namespace Sys2Proof.Machine

open Sys2Proof

/-- TAB (R530): `B <- A`. Cost 5. -/
def tabRule (_f : Fields) (s : State) : Effect where
  state := s.setB s.a
  cost := 5

/-- `TAB` as an instruction of its own (R530). -/
def execTab (f : Fields) (s : State) : Host.Outcome State Fault Refusal :=
  settle (tabRule f s)

/-- IAB (R531): `A` and `B` are interchanged. Cost 10. -/
def iabRule (_f : Fields) (s : State) : Effect where
  state := (s.setA s.b).setB s.a
  cost := 10

/-- `IAB` as an instruction of its own (R531). -/
def execIab (f : Fields) (s : State) : Host.Outcome State Fault Refusal :=
  settle (iabRule f s)

/-- LDX (R532): `X[X] <- MemRead(ea)[14:0]`, dropped for selector 0. Cost 5. -/
def ldxRule (f : Fields) (s : State) : Effect where
  state := s.writeX f.index (addressPart (operandM f s))
  cost := 5

/-- `LDX` as an instruction of its own (R532). -/
def execLdx (f : Fields) (s : State) : Host.Outcome State Fault Refusal :=
  settle (ldxRule f s)

/-- SIX (R533): `MemWrite(ea, zext_24(X[X]))`; selector 0 stores zero. Cost 10. -/
def sixRule (f : Fields) (s : State) : Effect where
  state := s.store (effectiveAddress f s) (wordOfAddr (s.readX f.index))
  cost := 10

/-- `SIX` as an instruction of its own (R533). -/
def execSix (f : Fields) (s : State) : Host.Outcome State Fault Refusal :=
  settle (sixRule f s)

end Sys2Proof.Machine
end

