-- ==== Sys2Proof/Machine/Unimplemented.lean ====
section
/-! DEFINITION. The 36 unimplemented opcode values of 30_encoding.md R321. Executing one is the decode error of 40_execution.md
R404, whatever its other fields; I/O opcodes are among them (R323, 90_conflicts.md C2). -/

namespace Sys2Proof.Machine

open Sys2Proof

/-- Opcode 0o01 is unimplemented (R321): the decode error of R404. -/
def unimpl01Rule (_f : Fields) (s : State) : Effect :=
  s.decodeError 0o01#6

/-- `UNIMPL_01` as an instruction of its own (R404). -/
def execUnimpl01 (f : Fields) (s : State) : Host.Outcome State Fault Refusal :=
  settle (unimpl01Rule f s)

/-- Opcode 0o04 is unimplemented (R321): the decode error of R404. -/
def unimpl04Rule (_f : Fields) (s : State) : Effect :=
  s.decodeError 0o04#6

/-- `UNIMPL_04` as an instruction of its own (R404). -/
def execUnimpl04 (f : Fields) (s : State) : Host.Outcome State Fault Refusal :=
  settle (unimpl04Rule f s)

/-- Opcode 0o06 is unimplemented (R321): the decode error of R404. -/
def unimpl06Rule (_f : Fields) (s : State) : Effect :=
  s.decodeError 0o06#6

/-- `UNIMPL_06` as an instruction of its own (R404). -/
def execUnimpl06 (f : Fields) (s : State) : Host.Outcome State Fault Refusal :=
  settle (unimpl06Rule f s)

/-- Opcode 0o07 is unimplemented (R321): the decode error of R404. -/
def unimpl07Rule (_f : Fields) (s : State) : Effect :=
  s.decodeError 0o07#6

/-- `UNIMPL_07` as an instruction of its own (R404). -/
def execUnimpl07 (f : Fields) (s : State) : Host.Outcome State Fault Refusal :=
  settle (unimpl07Rule f s)

/-- Opcode 0o14 is unimplemented (R321): the decode error of R404. -/
def unimpl14Rule (_f : Fields) (s : State) : Effect :=
  s.decodeError 0o14#6

/-- `UNIMPL_14` as an instruction of its own (R404). -/
def execUnimpl14 (f : Fields) (s : State) : Host.Outcome State Fault Refusal :=
  settle (unimpl14Rule f s)

/-- Opcode 0o20 is unimplemented (R321): the decode error of R404. -/
def unimpl20Rule (_f : Fields) (s : State) : Effect :=
  s.decodeError 0o20#6

/-- `UNIMPL_20` as an instruction of its own (R404). -/
def execUnimpl20 (f : Fields) (s : State) : Host.Outcome State Fault Refusal :=
  settle (unimpl20Rule f s)

/-- Opcode 0o21 is unimplemented (R321): the decode error of R404. -/
def unimpl21Rule (_f : Fields) (s : State) : Effect :=
  s.decodeError 0o21#6

/-- `UNIMPL_21` as an instruction of its own (R404). -/
def execUnimpl21 (f : Fields) (s : State) : Host.Outcome State Fault Refusal :=
  settle (unimpl21Rule f s)

/-- Opcode 0o22 is unimplemented (R321): the decode error of R404. -/
def unimpl22Rule (_f : Fields) (s : State) : Effect :=
  s.decodeError 0o22#6

/-- `UNIMPL_22` as an instruction of its own (R404). -/
def execUnimpl22 (f : Fields) (s : State) : Host.Outcome State Fault Refusal :=
  settle (unimpl22Rule f s)

/-- Opcode 0o25 is unimplemented (R321): the decode error of R404. -/
def unimpl25Rule (_f : Fields) (s : State) : Effect :=
  s.decodeError 0o25#6

/-- `UNIMPL_25` as an instruction of its own (R404). -/
def execUnimpl25 (f : Fields) (s : State) : Host.Outcome State Fault Refusal :=
  settle (unimpl25Rule f s)

/-- Opcode 0o26 is unimplemented (R321): the decode error of R404. -/
def unimpl26Rule (_f : Fields) (s : State) : Effect :=
  s.decodeError 0o26#6

/-- `UNIMPL_26` as an instruction of its own (R404). -/
def execUnimpl26 (f : Fields) (s : State) : Host.Outcome State Fault Refusal :=
  settle (unimpl26Rule f s)

/-- Opcode 0o30 is unimplemented (R321): the decode error of R404. -/
def unimpl30Rule (_f : Fields) (s : State) : Effect :=
  s.decodeError 0o30#6

/-- `UNIMPL_30` as an instruction of its own (R404). -/
def execUnimpl30 (f : Fields) (s : State) : Host.Outcome State Fault Refusal :=
  settle (unimpl30Rule f s)

/-- Opcode 0o31 is unimplemented (R321): the decode error of R404. -/
def unimpl31Rule (_f : Fields) (s : State) : Effect :=
  s.decodeError 0o31#6

/-- `UNIMPL_31` as an instruction of its own (R404). -/
def execUnimpl31 (f : Fields) (s : State) : Host.Outcome State Fault Refusal :=
  settle (unimpl31Rule f s)

/-- Opcode 0o32 is unimplemented (R321): the decode error of R404. -/
def unimpl32Rule (_f : Fields) (s : State) : Effect :=
  s.decodeError 0o32#6

/-- `UNIMPL_32` as an instruction of its own (R404). -/
def execUnimpl32 (f : Fields) (s : State) : Host.Outcome State Fault Refusal :=
  settle (unimpl32Rule f s)

/-- Opcode 0o33 is unimplemented (R321): the decode error of R404. -/
def unimpl33Rule (_f : Fields) (s : State) : Effect :=
  s.decodeError 0o33#6

/-- `UNIMPL_33` as an instruction of its own (R404). -/
def execUnimpl33 (f : Fields) (s : State) : Host.Outcome State Fault Refusal :=
  settle (unimpl33Rule f s)

/-- Opcode 0o36 is unimplemented (R321): the decode error of R404. -/
def unimpl36Rule (_f : Fields) (s : State) : Effect :=
  s.decodeError 0o36#6

/-- `UNIMPL_36` as an instruction of its own (R404). -/
def execUnimpl36 (f : Fields) (s : State) : Host.Outcome State Fault Refusal :=
  settle (unimpl36Rule f s)

/-- Opcode 0o37 is unimplemented (R321): the decode error of R404. -/
def unimpl37Rule (_f : Fields) (s : State) : Effect :=
  s.decodeError 0o37#6

/-- `UNIMPL_37` as an instruction of its own (R404). -/
def execUnimpl37 (f : Fields) (s : State) : Host.Outcome State Fault Refusal :=
  settle (unimpl37Rule f s)

/-- Opcode 0o42 is unimplemented (R321): the decode error of R404. -/
def unimpl42Rule (_f : Fields) (s : State) : Effect :=
  s.decodeError 0o42#6

/-- `UNIMPL_42` as an instruction of its own (R404). -/
def execUnimpl42 (f : Fields) (s : State) : Host.Outcome State Fault Refusal :=
  settle (unimpl42Rule f s)

/-- Opcode 0o43 is unimplemented (R321): the decode error of R404. -/
def unimpl43Rule (_f : Fields) (s : State) : Effect :=
  s.decodeError 0o43#6

/-- `UNIMPL_43` as an instruction of its own (R404). -/
def execUnimpl43 (f : Fields) (s : State) : Host.Outcome State Fault Refusal :=
  settle (unimpl43Rule f s)

/-- Opcode 0o44 is unimplemented (R321): the decode error of R404. -/
def unimpl44Rule (_f : Fields) (s : State) : Effect :=
  s.decodeError 0o44#6

/-- `UNIMPL_44` as an instruction of its own (R404). -/
def execUnimpl44 (f : Fields) (s : State) : Host.Outcome State Fault Refusal :=
  settle (unimpl44Rule f s)

/-- Opcode 0o45 is unimplemented (R321): the decode error of R404. -/
def unimpl45Rule (_f : Fields) (s : State) : Effect :=
  s.decodeError 0o45#6

/-- `UNIMPL_45` as an instruction of its own (R404). -/
def execUnimpl45 (f : Fields) (s : State) : Host.Outcome State Fault Refusal :=
  settle (unimpl45Rule f s)

/-- Opcode 0o46 is unimplemented (R321): the decode error of R404. -/
def unimpl46Rule (_f : Fields) (s : State) : Effect :=
  s.decodeError 0o46#6

/-- `UNIMPL_46` as an instruction of its own (R404). -/
def execUnimpl46 (f : Fields) (s : State) : Host.Outcome State Fault Refusal :=
  settle (unimpl46Rule f s)

/-- Opcode 0o47 is unimplemented (R321): the decode error of R404. -/
def unimpl47Rule (_f : Fields) (s : State) : Effect :=
  s.decodeError 0o47#6

/-- `UNIMPL_47` as an instruction of its own (R404). -/
def execUnimpl47 (f : Fields) (s : State) : Host.Outcome State Fault Refusal :=
  settle (unimpl47Rule f s)

/-- Opcode 0o50 is unimplemented (R321): the decode error of R404. -/
def unimpl50Rule (_f : Fields) (s : State) : Effect :=
  s.decodeError 0o50#6

/-- `UNIMPL_50` as an instruction of its own (R404). -/
def execUnimpl50 (f : Fields) (s : State) : Host.Outcome State Fault Refusal :=
  settle (unimpl50Rule f s)

/-- Opcode 0o51 is unimplemented (R321): the decode error of R404. -/
def unimpl51Rule (_f : Fields) (s : State) : Effect :=
  s.decodeError 0o51#6

/-- `UNIMPL_51` as an instruction of its own (R404). -/
def execUnimpl51 (f : Fields) (s : State) : Host.Outcome State Fault Refusal :=
  settle (unimpl51Rule f s)

/-- Opcode 0o52 is unimplemented (R321): the decode error of R404. -/
def unimpl52Rule (_f : Fields) (s : State) : Effect :=
  s.decodeError 0o52#6

/-- `UNIMPL_52` as an instruction of its own (R404). -/
def execUnimpl52 (f : Fields) (s : State) : Host.Outcome State Fault Refusal :=
  settle (unimpl52Rule f s)

/-- Opcode 0o53 is unimplemented (R321): the decode error of R404. -/
def unimpl53Rule (_f : Fields) (s : State) : Effect :=
  s.decodeError 0o53#6

/-- `UNIMPL_53` as an instruction of its own (R404). -/
def execUnimpl53 (f : Fields) (s : State) : Host.Outcome State Fault Refusal :=
  settle (unimpl53Rule f s)

/-- Opcode 0o54 is unimplemented (R321): the decode error of R404. -/
def unimpl54Rule (_f : Fields) (s : State) : Effect :=
  s.decodeError 0o54#6

/-- `UNIMPL_54` as an instruction of its own (R404). -/
def execUnimpl54 (f : Fields) (s : State) : Host.Outcome State Fault Refusal :=
  settle (unimpl54Rule f s)

/-- Opcode 0o60 is unimplemented (R321): the decode error of R404. -/
def unimpl60Rule (_f : Fields) (s : State) : Effect :=
  s.decodeError 0o60#6

/-- `UNIMPL_60` as an instruction of its own (R404). -/
def execUnimpl60 (f : Fields) (s : State) : Host.Outcome State Fault Refusal :=
  settle (unimpl60Rule f s)

/-- Opcode 0o61 is unimplemented (R321): the decode error of R404. -/
def unimpl61Rule (_f : Fields) (s : State) : Effect :=
  s.decodeError 0o61#6

/-- `UNIMPL_61` as an instruction of its own (R404). -/
def execUnimpl61 (f : Fields) (s : State) : Host.Outcome State Fault Refusal :=
  settle (unimpl61Rule f s)

/-- Opcode 0o62 is unimplemented (R321): the decode error of R404. -/
def unimpl62Rule (_f : Fields) (s : State) : Effect :=
  s.decodeError 0o62#6

/-- `UNIMPL_62` as an instruction of its own (R404). -/
def execUnimpl62 (f : Fields) (s : State) : Host.Outcome State Fault Refusal :=
  settle (unimpl62Rule f s)

/-- Opcode 0o63 is unimplemented (R321): the decode error of R404. -/
def unimpl63Rule (_f : Fields) (s : State) : Effect :=
  s.decodeError 0o63#6

/-- `UNIMPL_63` as an instruction of its own (R404). -/
def execUnimpl63 (f : Fields) (s : State) : Host.Outcome State Fault Refusal :=
  settle (unimpl63Rule f s)

/-- Opcode 0o64 is unimplemented (R321): the decode error of R404. -/
def unimpl64Rule (_f : Fields) (s : State) : Effect :=
  s.decodeError 0o64#6

/-- `UNIMPL_64` as an instruction of its own (R404). -/
def execUnimpl64 (f : Fields) (s : State) : Host.Outcome State Fault Refusal :=
  settle (unimpl64Rule f s)

/-- Opcode 0o65 is unimplemented (R321): the decode error of R404. -/
def unimpl65Rule (_f : Fields) (s : State) : Effect :=
  s.decodeError 0o65#6

/-- `UNIMPL_65` as an instruction of its own (R404). -/
def execUnimpl65 (f : Fields) (s : State) : Host.Outcome State Fault Refusal :=
  settle (unimpl65Rule f s)

/-- Opcode 0o67 is unimplemented (R321): the decode error of R404. -/
def unimpl67Rule (_f : Fields) (s : State) : Effect :=
  s.decodeError 0o67#6

/-- `UNIMPL_67` as an instruction of its own (R404). -/
def execUnimpl67 (f : Fields) (s : State) : Host.Outcome State Fault Refusal :=
  settle (unimpl67Rule f s)

/-- Opcode 0o75 is unimplemented (R321): the decode error of R404. -/
def unimpl75Rule (_f : Fields) (s : State) : Effect :=
  s.decodeError 0o75#6

/-- `UNIMPL_75` as an instruction of its own (R404). -/
def execUnimpl75 (f : Fields) (s : State) : Host.Outcome State Fault Refusal :=
  settle (unimpl75Rule f s)

/-- Opcode 0o76 is unimplemented (R321): the decode error of R404. -/
def unimpl76Rule (_f : Fields) (s : State) : Effect :=
  s.decodeError 0o76#6

/-- `UNIMPL_76` as an instruction of its own (R404). -/
def execUnimpl76 (f : Fields) (s : State) : Host.Outcome State Fault Refusal :=
  settle (unimpl76Rule f s)

end Sys2Proof.Machine
end

