-- ==== Sys2Proof/Machine/Execute.lean ====
section
/-! DEFINITION. XEC (47_execute.md R570 to R572): the executed word is the one at `ea`, with its own `ea`, semantics and cost; a chain of XECs nests
(90_conflicts.md C1, C4, C6). A chain changes only `PC`, so it either ends within as many XECs as there are words or never ends (log 6). -/

namespace Sys2Proof.Machine

open Sys2Proof

/-- The rule of an instruction, that of XEC being `xec`: the dispatch inside `exec(depth)` (40_execution.md R401, R403). `none` is a
step that never ends. -/
def ruleOf (xec : Fields → State → Option Effect) (i : Instr) (s : State) : Option Effect :=
  match i with
  | .hlt f => some (hltRule f s)
  | .xec f => xec f s
  | .stb f => some (stbRule f s)
  | .sta f => some (staRule f s)
  | .add f => some (addRule f s)
  | .sub f => some (subRule f s)
  | .skg f => some (skgRule f s)
  | .skn f => some (sknRule f s)
  | .ana f => some (anaRule f s)
  | .ora f => some (oraRule f s)
  | .era f => some (eraRule f s)
  | .ldb f => some (ldbRule f s)
  | .lda f => some (ldaRule f s)
  | .jsl f => some (jslRule f s)
  | .mpy f => some (mpyRule f s)
  | .div f => some (divRule f s)
  | .ars f => some (arsRule f s)
  | .als f => some (alsRule f s)
  | .tab f => some (tabRule f s)
  | .ldx f => some (ldxRule f s)
  | .iab f => some (iabRule f s)
  | .six f => some (sixRule f s)
  | .jpl f => some (jplRule f s)
  | .jze f => some (jzeRule f s)
  | .jmi f => some (jmiRule f s)
  | .jnz f => some (jnzRule f s)
  | .jmp f => some (jmpRule f s)
  | .nop f => some (nopRule f s)
  | .unimpl01 f => some (unimpl01Rule f s)
  | .unimpl04 f => some (unimpl04Rule f s)
  | .unimpl06 f => some (unimpl06Rule f s)
  | .unimpl07 f => some (unimpl07Rule f s)
  | .unimpl14 f => some (unimpl14Rule f s)
  | .unimpl20 f => some (unimpl20Rule f s)
  | .unimpl21 f => some (unimpl21Rule f s)
  | .unimpl22 f => some (unimpl22Rule f s)
  | .unimpl25 f => some (unimpl25Rule f s)
  | .unimpl26 f => some (unimpl26Rule f s)
  | .unimpl30 f => some (unimpl30Rule f s)
  | .unimpl31 f => some (unimpl31Rule f s)
  | .unimpl32 f => some (unimpl32Rule f s)
  | .unimpl33 f => some (unimpl33Rule f s)
  | .unimpl36 f => some (unimpl36Rule f s)
  | .unimpl37 f => some (unimpl37Rule f s)
  | .unimpl42 f => some (unimpl42Rule f s)
  | .unimpl43 f => some (unimpl43Rule f s)
  | .unimpl44 f => some (unimpl44Rule f s)
  | .unimpl45 f => some (unimpl45Rule f s)
  | .unimpl46 f => some (unimpl46Rule f s)
  | .unimpl47 f => some (unimpl47Rule f s)
  | .unimpl50 f => some (unimpl50Rule f s)
  | .unimpl51 f => some (unimpl51Rule f s)
  | .unimpl52 f => some (unimpl52Rule f s)
  | .unimpl53 f => some (unimpl53Rule f s)
  | .unimpl54 f => some (unimpl54Rule f s)
  | .unimpl60 f => some (unimpl60Rule f s)
  | .unimpl61 f => some (unimpl61Rule f s)
  | .unimpl62 f => some (unimpl62Rule f s)
  | .unimpl63 f => some (unimpl63Rule f s)
  | .unimpl64 f => some (unimpl64Rule f s)
  | .unimpl65 f => some (unimpl65Rule f s)
  | .unimpl67 f => some (unimpl67Rule f s)
  | .unimpl75 f => some (unimpl75Rule f s)
  | .unimpl76 f => some (unimpl76Rule f s)

/-- What XEC does when no limit stops it (R570): `PC <- ea`, the fetch at `ea` with `PC <- (ea + 1) mod 32768`, the rule of the word
found there, and 5 more cost units. `nested` is the rule of an XEC found there. -/
def executeTarget (nested : Fields → State → Option Effect) (f : Fields) (s : State) : Option Effect :=
  let t := s.setPc (effectiveAddress f s)
  (ruleOf nested (decode t.fetchWord) t.advance).map fun e => e.addCost 5

/-- An XEC met at `depth` would make more than `L` levels: `depth + 1 > L` (R572). With no limit, never. -/
def exceedsLimit (limit : Option DepthLimit) (depth : Nat) : Bool :=
  match limit with
  | none => false
  | some l => decide (l.levels < depth + 1)

/-- `XecLimit(fa)` (R572): the decode-error outcome with the XEC opcode. -/
def xecLimitRule (s : State) : Effect :=
  s.decodeError 0o02#6

/-- The rule of an XEC met at `depth` (R570, R572), following at most `fuel` further XECs. -/
def nestedXec (limit : Option DepthLimit) : Nat → Nat → Fields → State → Option Effect
  | 0, depth, _, s =>
    if exceedsLimit limit depth then some (xecLimitRule s) else none
  | fuel + 1, depth, f, s =>
    if exceedsLimit limit depth then some (xecLimitRule s)
    else executeTarget (nestedXec limit fuel (depth + 1)) f s

/-- Enough fuel for every chain that ends: an unlimited chain that ends meets no address twice, and a limit of `L` ends every chain
after `L` XECs. -/
def xecFuel (limit : Option DepthLimit) : Nat :=
  match limit with
  | none => memWords
  | some l => memWords + l.levels

/-- The rule of the XEC that a step fetches, at depth 0 (R570). R572 never stops this one, since `L >= 1`. -/
def xecRule (limit : Option DepthLimit) (f : Fields) (s : State) : Option Effect :=
  executeTarget (nestedXec limit (xecFuel limit) 1) f s

/-- `exec(0)` after the fetch and the increment of `PC` (R401), for every instruction. -/
def instrRule (i : Instr) (s : State) : Option Effect :=
  ruleOf (xecRule Config.xecDepthLimit) i s

/-- `XEC` as an instruction of its own (R570); a chain that never ends is a stuck step (R571 (h)). -/
def execXec (f : Fields) (s : State) : Host.Outcome State Fault Refusal :=
  match xecRule Config.xecDepthLimit f s with
  | some e => settle e
  | none => .fault .xecNeverEnds

end Sys2Proof.Machine
end

