-- ==== Sys2Proof/Machine/Dispatch.lean ====
section
/-! DEFINITION. One arm per constructor of Instr (40_execution.md R403: dispatch is on the opcode alone). The state that a meaning
gets is the one after the fetch and the increment of PC (R401), so `s.pc` is `fa + 1` there. -/

namespace Sys2Proof.Machine

open Sys2Proof

def exec (i : Instr) (s : State) : Host.Outcome State Fault Refusal :=
  match i with
  | .hlt f => Sys2Proof.Machine.execHlt f s
  | .xec f => Sys2Proof.Machine.execXec f s
  | .stb f => Sys2Proof.Machine.execStb f s
  | .sta f => Sys2Proof.Machine.execSta f s
  | .add f => Sys2Proof.Machine.execAdd f s
  | .sub f => Sys2Proof.Machine.execSub f s
  | .skg f => Sys2Proof.Machine.execSkg f s
  | .skn f => Sys2Proof.Machine.execSkn f s
  | .ana f => Sys2Proof.Machine.execAna f s
  | .ora f => Sys2Proof.Machine.execOra f s
  | .era f => Sys2Proof.Machine.execEra f s
  | .ldb f => Sys2Proof.Machine.execLdb f s
  | .lda f => Sys2Proof.Machine.execLda f s
  | .jsl f => Sys2Proof.Machine.execJsl f s
  | .mpy f => Sys2Proof.Machine.execMpy f s
  | .div f => Sys2Proof.Machine.execDiv f s
  | .ars f => Sys2Proof.Machine.execArs f s
  | .als f => Sys2Proof.Machine.execAls f s
  | .tab f => Sys2Proof.Machine.execTab f s
  | .ldx f => Sys2Proof.Machine.execLdx f s
  | .iab f => Sys2Proof.Machine.execIab f s
  | .six f => Sys2Proof.Machine.execSix f s
  | .jpl f => Sys2Proof.Machine.execJpl f s
  | .jze f => Sys2Proof.Machine.execJze f s
  | .jmi f => Sys2Proof.Machine.execJmi f s
  | .jnz f => Sys2Proof.Machine.execJnz f s
  | .jmp f => Sys2Proof.Machine.execJmp f s
  | .nop f => Sys2Proof.Machine.execNop f s
  | .unimpl01 f => Sys2Proof.Machine.execUnimpl01 f s
  | .unimpl04 f => Sys2Proof.Machine.execUnimpl04 f s
  | .unimpl06 f => Sys2Proof.Machine.execUnimpl06 f s
  | .unimpl07 f => Sys2Proof.Machine.execUnimpl07 f s
  | .unimpl14 f => Sys2Proof.Machine.execUnimpl14 f s
  | .unimpl20 f => Sys2Proof.Machine.execUnimpl20 f s
  | .unimpl21 f => Sys2Proof.Machine.execUnimpl21 f s
  | .unimpl22 f => Sys2Proof.Machine.execUnimpl22 f s
  | .unimpl25 f => Sys2Proof.Machine.execUnimpl25 f s
  | .unimpl26 f => Sys2Proof.Machine.execUnimpl26 f s
  | .unimpl30 f => Sys2Proof.Machine.execUnimpl30 f s
  | .unimpl31 f => Sys2Proof.Machine.execUnimpl31 f s
  | .unimpl32 f => Sys2Proof.Machine.execUnimpl32 f s
  | .unimpl33 f => Sys2Proof.Machine.execUnimpl33 f s
  | .unimpl36 f => Sys2Proof.Machine.execUnimpl36 f s
  | .unimpl37 f => Sys2Proof.Machine.execUnimpl37 f s
  | .unimpl42 f => Sys2Proof.Machine.execUnimpl42 f s
  | .unimpl43 f => Sys2Proof.Machine.execUnimpl43 f s
  | .unimpl44 f => Sys2Proof.Machine.execUnimpl44 f s
  | .unimpl45 f => Sys2Proof.Machine.execUnimpl45 f s
  | .unimpl46 f => Sys2Proof.Machine.execUnimpl46 f s
  | .unimpl47 f => Sys2Proof.Machine.execUnimpl47 f s
  | .unimpl50 f => Sys2Proof.Machine.execUnimpl50 f s
  | .unimpl51 f => Sys2Proof.Machine.execUnimpl51 f s
  | .unimpl52 f => Sys2Proof.Machine.execUnimpl52 f s
  | .unimpl53 f => Sys2Proof.Machine.execUnimpl53 f s
  | .unimpl54 f => Sys2Proof.Machine.execUnimpl54 f s
  | .unimpl60 f => Sys2Proof.Machine.execUnimpl60 f s
  | .unimpl61 f => Sys2Proof.Machine.execUnimpl61 f s
  | .unimpl62 f => Sys2Proof.Machine.execUnimpl62 f s
  | .unimpl63 f => Sys2Proof.Machine.execUnimpl63 f s
  | .unimpl64 f => Sys2Proof.Machine.execUnimpl64 f s
  | .unimpl65 f => Sys2Proof.Machine.execUnimpl65 f s
  | .unimpl67 f => Sys2Proof.Machine.execUnimpl67 f s
  | .unimpl75 f => Sys2Proof.Machine.execUnimpl75 f s
  | .unimpl76 f => Sys2Proof.Machine.execUnimpl76 f s

end Sys2Proof.Machine
end

