-- ==== Sys2Proof/Machine/Step.lean ====
section
/-! DEFINITION. The step of 40_execution.md R400: indivisible, and nothing at all while halted. -/

namespace Sys2Proof.Machine

open Sys2Proof

/-- One step (R400, R401): a halted machine does nothing; otherwise the word at `PC` is fetched, `PC` advances, and the instruction
is performed and charged. -/
def step (s : State) : Host.Outcome State Fault Refusal :=
  if s.halted then .next s else exec (decode s.fetchWord) s.advance

/-- The state whose very next step fetches and runs the instruction of an opcode-table word: the word stands at `PC`, and the machine
is not halted (a halted machine fetches nothing, R400). -/
def State.withFetchWord (s : State) (nbits w : Nat) : State :=
  (s.store s.pc (wordOfTable nbits w)).setHalted false

end Sys2Proof.Machine
end

