-- ==== Sys2Proof/Machine/Accesses.lean ====
section
/-! DEFINITION. The memory accesses of one step, in order (20_memory.md R210), and how each instruction uses `ea` (30_encoding.md
R311). Reads have no side effect (R203), so this file adds nothing to the step; it says which words the step touches. -/

namespace Sys2Proof.Machine

open Sys2Proof

/-- The operand forms of R311. -/
inductive OperandForm where
  | memorySource
  | memoryDestination
  | jumpTarget
  | executeTarget
  | shiftCount
  | unused
  deriving DecidableEq, Repr

/-- How an instruction uses `ea` (R311). -/
def operandForm : Instr → OperandForm
  | .hlt _ => .unused
  | .xec _ => .executeTarget
  | .stb _ => .memoryDestination
  | .sta _ => .memoryDestination
  | .add _ => .memorySource
  | .sub _ => .memorySource
  | .skg _ => .memorySource
  | .skn _ => .memorySource
  | .ana _ => .memorySource
  | .ora _ => .memorySource
  | .era _ => .memorySource
  | .ldb _ => .memorySource
  | .lda _ => .memorySource
  | .jsl _ => .memoryDestination
  | .mpy _ => .memorySource
  | .div _ => .memorySource
  | .ars _ => .shiftCount
  | .als _ => .shiftCount
  | .tab _ => .unused
  | .ldx f => if f.index = .x0 then .unused else .memorySource
  | .iab _ => .unused
  | .six _ => .memoryDestination
  | .jpl _ => .jumpTarget
  | .jze _ => .jumpTarget
  | .jmi _ => .jumpTarget
  | .jnz _ => .jumpTarget
  | .jmp _ => .jumpTarget
  | .nop _ => .unused
  | .unimpl01 _ => .unused
  | .unimpl04 _ => .unused
  | .unimpl06 _ => .unused
  | .unimpl07 _ => .unused
  | .unimpl14 _ => .unused
  | .unimpl20 _ => .unused
  | .unimpl21 _ => .unused
  | .unimpl22 _ => .unused
  | .unimpl25 _ => .unused
  | .unimpl26 _ => .unused
  | .unimpl30 _ => .unused
  | .unimpl31 _ => .unused
  | .unimpl32 _ => .unused
  | .unimpl33 _ => .unused
  | .unimpl36 _ => .unused
  | .unimpl37 _ => .unused
  | .unimpl42 _ => .unused
  | .unimpl43 _ => .unused
  | .unimpl44 _ => .unused
  | .unimpl45 _ => .unused
  | .unimpl46 _ => .unused
  | .unimpl47 _ => .unused
  | .unimpl50 _ => .unused
  | .unimpl51 _ => .unused
  | .unimpl52 _ => .unused
  | .unimpl53 _ => .unused
  | .unimpl54 _ => .unused
  | .unimpl60 _ => .unused
  | .unimpl61 _ => .unused
  | .unimpl62 _ => .unused
  | .unimpl63 _ => .unused
  | .unimpl64 _ => .unused
  | .unimpl65 _ => .unused
  | .unimpl67 _ => .unused
  | .unimpl75 _ => .unused
  | .unimpl76 _ => .unused

/-- One access to the store. -/
inductive Access where
  | fetch (a : Addr)
  | pointer (a : Addr)
  | operandRead (a : Addr)
  | operandWrite (a : Addr)
  deriving DecidableEq, Repr

/-- The address an access writes. -/
def Access.written : Access → Option Addr
  | .fetch _ => none
  | .pointer _ => none
  | .operandRead _ => none
  | .operandWrite a => some a

/-- Access (2) of R210: the pointer read of every opcode with the indirect bit set (R302). -/
def pointerAccess (f : Fields) (s : State) : List Access :=
  if f.indirect then [.pointer (indexedAddress f s)] else []

/-- Access (3) of R210: the operand access. -/
def operandAccess (i : Instr) (s : State) : List Access :=
  match operandForm i with
  | .memorySource => [.operandRead (effectiveAddress i.fields s)]
  | .memoryDestination => [.operandWrite (effectiveAddress i.fields s)]
  | .jumpTarget => []
  | .executeTarget => []
  | .shiftCount => []
  | .unused => []

/-- Accesses (1) to (3) of the instruction that stands at `fa` when its fields are used in state `s`. -/
def ownAccesses (fa : Addr) (i : Instr) (s : State) : List Access :=
  .fetch fa :: (pointerAccess i.fields s ++ operandAccess i s)

/-- Accesses of the instruction at `fa`, and (4) of R210 for each XEC of a chain, following at most `fuel` of them. An XEC met at a
`depth` that exceeds the limit executes nothing (R572). -/
def chainAccesses (limit : Option DepthLimit) (s : State) : Nat → Nat → Addr → List Access
  | 0, _, fa => ownAccesses fa (decode (s.load fa)) s
  | fuel + 1, depth, fa =>
    let i := decode (s.load fa)
    let own := ownAccesses fa i s
    match operandForm i with
    | .executeTarget =>
      if exceedsLimit limit depth then own
      else own ++ chainAccesses limit s fuel (depth + 1) (effectiveAddress i.fields s)
    | .memorySource => own
    | .memoryDestination => own
    | .jumpTarget => own
    | .shiftCount => own
    | .unused => own

/-- The accesses of one step (R210): none while halted (R400). -/
def stepAccesses (s : State) : List Access :=
  if s.halted then [] else chainAccesses Config.xecDepthLimit s (xecFuel Config.xecDepthLimit + 1) 0 s.pc

end Sys2Proof.Machine
end

