-- ==== Sys2Proof/Machine/Commands.lean ====
section
/-! DEFINITION. The host interface (10_state.md R120 to R125, 40_execution.md R410, 70_reset_and_hazards.md R700, R701): INIT, RESET,
STEP, RUN, READ, WRITE, INSPECT, PRESET. A command is accepted only between steps and is performed to completion (R121), so each is
one function of the state. -/

namespace Sys2Proof.Machine

open Sys2Proof

/-! ### INIT and RESET -/

/-- INIT (R700): every piece of state to zero, memory included. The sink keeps what it has been sent; INIT emits nothing (R703). -/
def State.init (s : State) : State :=
  { State.reset with diagLog := s.diagLog }

/-- RESET (R701): registers, flags and `cycles` to zero, memory unchanged. It emits nothing (R703). -/
def State.resetCommand (s : State) : State :=
  { State.reset with memory := s.memory, diagLog := s.diagLog }

/-! ### READ and WRITE -/

/-- An address a host gives, reduced modulo 32768 (R124, R201). -/
def hostAddr (addr : Nat) : Addr :=
  BitVec.ofNat 15 addr

/-- READ(addr) (R124): `memory[addr mod 32768]`. -/
def State.hostRead (s : State) (addr : Nat) : Word :=
  s.load (hostAddr addr)

/-- WRITE(addr, word) (R124): `memory[addr mod 32768] <- word mod 2^24`, and nothing else. -/
def State.hostWrite (s : State) (addr word : Nat) : State :=
  s.store (hostAddr addr) (BitVec.ofNat 24 word)

/-! ### INSPECT and PRESET -/

/-- What a host can name in INSPECT and PRESET (R125). -/
inductive Register where
  | a | b
  | x (r : IndexReg)
  | pc
  | overflow | halted | interruptEnabled | cycles
  deriving DecidableEq, Repr

/-- INSPECT(r) (R125): the current value, as an unsigned number; `X[0]` and `interrupt_enabled` are not in the surface. -/
def State.inspect (s : State) : Register → Option Nat
  | .a => some s.a.toNat
  | .b => some s.b.toNat
  | .x .x0 => none
  | .x r => some (s.readX r).toNat
  | .pc => some s.pc.toNat
  | .overflow => some s.overflow.toNat
  | .halted => some s.halted.toNat
  | .interruptEnabled => none
  | .cycles => some s.cycles.toNat

/-- PRESET(r, v) (R125, decision D3): `none` is the refusal, which changes nothing. -/
def State.preset (s : State) (v : Nat) : Register → Option State
  | .a => some (s.setA (BitVec.ofNat 24 v))
  | .b => some (s.setB (BitVec.ofNat 24 v))
  | .x .x0 => none
  | .x r => some (s.writeX r (BitVec.ofNat 15 v))
  | .pc => some (s.setPc (BitVec.ofNat 15 v))
  | .halted => some (s.setHalted (decide (v % 2 = 1)))
  | .overflow => none
  | .interruptEnabled => none
  | .cycles => none

/-! ### STEP and RUN -/

/-- A step's effect before its cost is charged (R400): nothing at cost 0 while halted. `none` is a step that never ends. -/
def stepEffect (s : State) : Option Effect :=
  if s.halted then some ⟨s, 0⟩ else instrRule (decode s.fetchWord) s.advance

/-- What a RUN comes to. -/
inductive RunResult where
  /-- The loop of R410 left off: its total and the state. -/
  | finished (total : Nat) (s : State)
  /-- A step of it never ends: the host regains no control (R571 (h)). -/
  | stuck
  /-- The fuel is spent and the loop would go on: no claim about the RUN (log 15). -/
  | outOfFuel
  deriving DecidableEq, Repr

/-- The loop's test (R410): `halted = 0 and (budget = 0 or total < budget)`. -/
def runGoesOn (budget total : Nat) (s : State) : Bool :=
  !s.halted && (budget == 0 || decide (total < budget))

/-- The loop of R410 with `total` already accumulated, making at most `fuel` steps. -/
def runLoop (budget : Nat) : Nat → Nat → State → RunResult
  | 0, total, s => if runGoesOn budget total s then .outOfFuel else .finished total s
  | fuel + 1, total, s =>
    if runGoesOn budget total s then
      match stepEffect s with
      | none => .stuck
      | some e => runLoop budget fuel (total + e.cost) e.commit
    else .finished total s

/-- RUN(budget) (R410), followed for at most `fuel` steps; the budget is an unsigned 64-bit number (decision D7). -/
def State.run (s : State) (fuel : Nat) (budget : BitVec 64) : RunResult :=
  runLoop budget.toNat fuel 0 s

/-! ### All commands -/

/-- The host's commands (R120). -/
inductive Command where
  | init
  | reset
  | step
  | run (budget : BitVec 64)
  | read (addr : Nat)
  | write (addr word : Nat)
  | inspect (r : Register)
  | preset (r : Register) (v : Nat)
  deriving DecidableEq, Repr

/-- What a completed command returns to the host. -/
inductive Reply where
  /-- Nothing is returned: INIT, RESET, WRITE, PRESET. -/
  | done
  /-- The cost of a STEP, or the cumulative cost of a RUN (R123). -/
  | cost (c : Nat)
  /-- The word of a READ (R124). -/
  | word (w : Word)
  /-- The value of an INSPECT (R125). -/
  | value (v : Nat)
  /-- The register is not one the command reaches; nothing has changed (R125). -/
  | refused
  deriving DecidableEq, Repr

/-- What a command comes to. -/
inductive CommandResult where
  | completed (reply : Reply) (s : State)
  /-- The command never returns (R571 (h)). -/
  | stuck
  /-- A RUN longer than the fuel (log 15). -/
  | outOfFuel
  deriving DecidableEq, Repr

/-- Performing a command; `fuel` bounds the steps of a RUN and nothing else. -/
def State.perform (s : State) (fuel : Nat) : Command → CommandResult
  | .init => .completed .done s.init
  | .reset => .completed .done s.resetCommand
  | .step =>
    match stepEffect s with
    | none => .stuck
    | some e => .completed (.cost e.cost) e.commit
  | .run budget =>
    match s.run fuel budget with
    | .finished total t => .completed (.cost total) t
    | .stuck => .stuck
    | .outOfFuel => .outOfFuel
  | .read addr => .completed (.word (s.hostRead addr)) s
  | .write addr word => .completed .done (s.hostWrite addr word)
  | .inspect r =>
    match s.inspect r with
    | none => .completed .refused s
    | some v => .completed (.value v) s
  | .preset r v =>
    match s.preset v r with
    | none => .completed .refused s
    | some t => .completed .done t

end Sys2Proof.Machine
end

