-- ==== Sys2Proof/Machine/Loader.lean ====
section
/-! DEFINITION. The image loader (20_memory.md R220), a collaborator outside the block that acts through the host's WRITE. -/

namespace Sys2Proof.Machine

open Sys2Proof

/-- The words of an image, three big-endian bytes each; a trailing group of one or two bytes writes no word (decision D11). -/
def imageWords : List Byte → List Word
  | b0 :: b1 :: b2 :: rest => wordOfBytes b0 b1 b2 :: imageWords rest
  | _ => []

/-- Word `n` of an image to `memory[n]`, and so on, stopping when `n` reaches 32768 (R220). -/
def State.loadFrom (s : State) (n : Nat) : List Word → State
  | [] => s
  | w :: rest => if n < memWords then (s.hostWrite n w.toNat).loadFrom (n + 1) rest else s

/-- Loading a binary image: the registers and flags stay as they are (R220). -/
def State.loadImage (s : State) (image : List Byte) : State :=
  s.loadFrom 0 (imageWords image)

end Sys2Proof.Machine
end

