-- ==== Sys2Proof/Safety.lean ====
section
/-! DEFINITION. The terms the statements use: the invariant of reachable states, and what an instruction leaves unchanged. -/

namespace Sys2Proof.Machine

open Sys2Proof

/-- What holds in every reachable state beside what the types already say (10_state.md R108, R112): the store is in its canonical
form, and `interrupt_enabled` is 0. -/
def Inv (s : State) : Prop :=
  s.memory.wf = true ∧ s.interruptEnabled = false

/-- Every register, flag and counter is zero (70_reset_and_hazards.md R702). -/
def AllZeroButMemory (s : State) : Prop :=
  s.a = 0#24 ∧ s.b = 0#24 ∧ (∀ r : IndexReg, s.readX r = 0#15) ∧ s.pc = 0#15 ∧
    s.overflow = false ∧ s.halted = false ∧ s.interruptEnabled = false ∧ s.cycles = 0#64

/-- Every word of memory reads as before. -/
def SameWords (s t : State) : Prop :=
  ∀ a : Addr, t.load a = s.load a

/-- Every word of memory but the one at `here` reads as before. -/
def SameWordsBut (here : Addr) (s t : State) : Prop :=
  ∀ a : Addr, a ≠ here → t.load a = s.load a

/-- Every index register reads as before. -/
def SameIndex (s t : State) : Prop :=
  ∀ r : IndexReg, t.readX r = s.readX r

/-- The control state reads as before: `halted`, `interrupt_enabled`, and no diagnostic event is emitted. -/
def SameControl (s t : State) : Prop :=
  t.halted = s.halted ∧ t.interruptEnabled = s.interruptEnabled ∧ t.diagLog = s.diagLog

/-- `cycles` grows by `c`, modulo 2^64 (R400). -/
def Charged (c : Nat) (s t : State) : Prop :=
  t.cycles = s.cycles + BitVec.ofNat 64 c

/-- What an instruction that writes no memory, no index register and no control state leaves, at a cost of `c`. -/
def SameButRegisters (c : Nat) (s t : State) : Prop :=
  SameWords s t ∧ SameIndex s t ∧ SameControl s t ∧ Charged c s t

/-- What an instruction that stores one word at `here` leaves, at a cost of `c`: both accumulators, `overflow`, the index registers, the
control state and every other word. -/
def SameButWord (here : Addr) (c : Nat) (s t : State) : Prop :=
  SameWordsBut here s t ∧ t.a = s.a ∧ t.b = s.b ∧ t.overflow = s.overflow ∧ SameIndex s t ∧ SameControl s t ∧ Charged c s t

/-- `i` completes from `s`: `PC` becomes `target` where `taken` holds and stays otherwise; nothing else changes but `cycles`, by `c`. -/
def CompletesAsJump (i : Instr) (taken : Bool) (target : Addr) (c : Nat) (s : State) : Prop :=
  ∃ t : State, exec i s = .next t ∧ t.pc = (if taken then target else s.pc) ∧
    t.a = s.a ∧ t.b = s.b ∧ t.overflow = s.overflow ∧ SameButRegisters c s t

/-- `i` completes from `s` and `A` becomes a word that meets `result`; nothing else changes but `cycles`, by `c`. -/
def CompletesInA (i : Instr) (result : Word → Prop) (c : Nat) (s : State) : Prop :=
  ∃ t : State, exec i s = .next t ∧ result t.a ∧
    t.b = s.b ∧ t.pc = s.pc ∧ t.overflow = s.overflow ∧ SameButRegisters c s t

/-- `i` completes from `s`, the word at `here` becomes `v`, `PC` becomes `target`; nothing else changes but `cycles`, by `c`. -/
def CompletesAsStore (i : Instr) (here : Addr) (v : Word) (target : Addr) (c : Nat) (s : State) : Prop :=
  ∃ t : State, exec i s = .next t ∧ t.load here = v ∧ t.pc = target ∧ SameButWord here c s t

/-- XEC with the fields `f` completes from `s`, leaving `PC` at `target`, at a cost of `c`. -/
def XecLeavesPc (f : Fields) (s : State) (target : Addr) (c : Nat) : Prop :=
  ∃ t : State, exec (.xec f) s = .next t ∧ t.pc = target ∧ Charged c s t

/-- The step at `s` never ends, however far its XEC chain is followed. -/
def NeverEnds (limit : Option DepthLimit) (f : Fields) (s : State) : Prop :=
  ∀ fuel : Nat, executeTarget (nestedXec limit fuel 1) f s = none

/-- Following the XECs of `i` in state `s` (47_execute.md R570): after `n` executed XECs the word reached is `j`, and it is met in
state `u`, whose `PC` is one past it. An XEC met at depth `n` is executed if no limit `L` has `n + 1 > L` (R572). -/
inductive XecChain (limit : Option DepthLimit) (i : Instr) (s : State) : Nat → Instr → State → Prop where
  | start : XecChain limit i s 0 i s
  | link (n : Nat) (f : Fields) (u : State) :
      XecChain limit i s n (.xec f) u → (∀ l : DepthLimit, limit = some l → n + 1 ≤ l.levels) →
      XecChain limit i s (n + 1) (decode (u.load (effectiveAddress f u))) (u.setPc (effectiveAddress f u + 1#15))

/-- The chain of `i` ends after `n` executed XECs in its last word `j`, met in state `u`: `j` is no XEC, or the XEC that the limit stops.
For an instruction that is no XEC that is the instruction itself, with `n = 0`. -/
def ChainEndsIn (limit : Option DepthLimit) (i : Instr) (s : State) (n : Nat) (j : Instr) (u : State) : Prop :=
  XecChain limit i s n j u ∧ (j.opcode = 0o02#6 → ∃ l : DepthLimit, limit = some l ∧ l.levels < n + 1)

/-- `n` STEP commands in a row lead from `s` to `t`, and the costs they return sum to `total`. -/
inductive StepsCost (s : State) : Nat → Nat → State → Prop where
  | start : StepsCost s 0 0 s
  | more (n total c : Nat) (u t : State) :
      StepsCost s n total u → u.perform 0 .step = .completed (.cost c) t → StepsCost s (n + 1) (total + c) t

/-- The test that RUN makes before each step (40_execution.md R410): `halted = 0 and (budget = 0 or total < budget)`. -/
def BudgetAllows (budget : BitVec 64) (total : Nat) (s : State) : Prop :=
  s.halted = false ∧ (budget = 0#64 ∨ total < budget.toNat)

end Sys2Proof.Machine
end

