-- ==== Sys2Proof/Certificates/Slice0/Obligations.lean ====
section
/-! DEFINITION. The statements for the provers, each a numbered rule of the spec or a consequence of several. OBLIGATIONS.json lists
them with their sources. -/

open Sys2Proof Sys2Proof.Machine

/-! ### The step, decoding and encoding -/

/-- When the machine is not halted and the word at PC decodes to a well-formed instruction i, step is exec of i at the same state with PC advanced by one modulo 32768 and nothing else changed. The step adds nothing after exec: the cost is charged inside exec, once. -/
def Obligations.StepRunsTheDecodedInstruction : Prop :=
  ∀ (s : State) (i : Instr), s.halted = false → i.wellFormed = true → decode (s.load s.pc) = i →
    step s = exec i { s with pc := s.pc + 1#15 }

/-- When halted is 1, step answers the same state, and the STEP command answers cost 0 and the same state. -/
def Obligations.HaltedStepDoesNothing : Prop :=
  ∀ (s : State) (fuel : Nat), s.halted = true →
    step s = .next s ∧ s.perform fuel .step = .completed (.cost 0) s

/-- Seven words, written from the opcode map and the field layout, decode to the instruction they stand for: LDA 0400, STB* 0300, LDB 0400,1, LDX 0100,2, XEC* 0100, NOP* 0400, and the unimplemented opcode 0o76 with every field bit set. -/
def Obligations.DecodesWordsWrittenFromTheTable : Prop :=
  decode 0o24000400#24 = .lda ⟨false, .x0, 0o400#15⟩ ∧
  decode 0o03400300#24 = .stb ⟨true, .x0, 0o300#15⟩ ∧
  decode 0o23100400#24 = .ldb ⟨false, .x1, 0o400#15⟩ ∧
  decode 0o56200100#24 = .ldx ⟨false, .x2, 0o100#15⟩ ∧
  decode 0o02400100#24 = .xec ⟨true, .x0, 0o100#15⟩ ∧
  decode 0o77400400#24 = .nop ⟨true, .x0, 0o400#15⟩ ∧
  decode 0o76777777#24 = .unimpl76 ⟨true, .x3, 0o77777#15⟩

/-- For every well-formed instruction, of all 64 opcodes and with every value of I, X and addr, decode of encode is the instruction itself. -/
def Obligations.DecodeOfEncodeIsIdentity : Prop :=
  ∀ i : Instr, i.wellFormed = true → decode (encode i) = i

/-- For every one of the 2^24 words, encode of decode is the word itself: decoding drops no bit, and no two words decode to one instruction. -/
def Obligations.EncodeOfDecodeIsIdentity : Prop :=
  ∀ w : Word, encode (decode w) = w

/-- For every word w read as a number: the opcode is w div 2^18, the indirect flag is bit 17, the index selector is (w div 2^15) mod 4, the address field is w mod 2^15. -/
def Obligations.DecodeReadsTheFourFields : Prop :=
  ∀ w : Word,
    (decode w).opcode.toNat = w.toNat / 2 ^ 18 ∧
    ((decode w).fields.indirect = true ↔ w.toNat / 2 ^ 17 % 2 = 1) ∧
    (decode w).fields.index.number = w.toNat / 2 ^ 15 % 4 ∧
    (decode w).fields.addr.toNat = w.toNat % 2 ^ 15

/-- If op < 64, I < 2, x < 4 and addr < 32768, the raw line names a well-formed instruction whose word is the number op*2^18 + I*2^17 + x*2^15 + addr; otherwise it is refused by name. That numbers which do not fit their fields are refused, and by name, is the model's choice, read from the widths of R300 and stated by no rule (log 22). -/
def Obligations.RawInstructionsAreCheckedAndEncoded : Prop :=
  ∀ r : RawInstr,
    (r.op < 64 ∧ r.indirect < 2 ∧ r.index < 4 ∧ r.addr < 32768 →
      ∃ i : Instr, r.toInstr = .ok i ∧ i.wellFormed = true ∧
        (encode i).toNat = r.op * 2 ^ 18 + r.indirect * 2 ^ 17 + r.index * 2 ^ 15 + r.addr) ∧
    (64 ≤ r.op ∨ 2 ≤ r.indirect ∨ 4 ≤ r.index ∨ 32768 ≤ r.addr → ∃ why : IllFormed, r.toInstr = .error why)

/-! ### Memory, the effective address and the accesses of a step -/

/-- If two memories are in canonical form and every 15-bit address reads the same word in both, they are equal. The canonical form is the model's own representation of the 32768 words (log 1). -/
def Obligations.CanonicalMemoriesWithEqualReadsAreEqual : Prop :=
  ∀ m n : Memory, m.wf = true → n.wf = true → (∀ a : Addr, m.read a = n.read a) → m = n

/-- With X = 0 the indexed address is addr, otherwise (addr + X[X]) mod 32768; ea is that address when I = 0, and the low 15 bits of the word there when I = 1, whatever that word's other bits are. -/
def Obligations.EffectiveAddressIndexesThenIndirects : Prop :=
  ∀ (f : Fields) (s : State),
    (f.index = .x0 → indexedAddress f s = f.addr) ∧
    (f.index ≠ .x0 → (indexedAddress f s).toNat = (f.addr.toNat + (s.readX f.index).toNat) % 32768) ∧
    (f.indirect = false → effectiveAddress f s = indexedAddress f s) ∧
    (f.indirect = true → (effectiveAddress f s).toNat = (s.load (indexedAddress f s)).toNat % 32768)

/-- For every step that answers a next state, XEC chains included: the list of accesses of the step holds at most one write, and every address that no access of the list writes reads after the step as it read before. -/
def Obligations.StepChangesOnlyTheWordItsAccessesWrite : Prop :=
  ∀ s t : State, step s = .next t →
    (stepAccesses s).countP (fun x => x.written.isSome) ≤ 1 ∧
    ∀ a : Addr, (∀ x ∈ stepAccesses s, x.written ≠ some a) → t.load a = s.load a

/-- If STA stores at the address PC holds while it runs (the next instruction's), the state after it fetches the stored word, so an instruction may modify the next one. -/
def Obligations.StoredWordIsFetchedNext : Prop :=
  ∀ (f : Fields) (s : State), s.memory.wf = true → effectiveAddress f s = s.pc →
    ∃ t : State, exec (.sta f) s = .next t ∧ t.fetchWord = s.a

/-! ### Reset, and the invariant of reachable states -/

/-- The reset state has A, B, X[0..3], PC, overflow, halted, interrupt_enabled and cycles zero and every word of memory zero; INIT of any state, and RESET of any state, make each of those registers, flags and the counter zero; INIT makes every word zero and RESET leaves every word unchanged. That the reset state is the state after INIT, zero memory included, is the spec's own decision D12 (log 10). -/
def Obligations.ResetStateIsAllZero : Prop :=
  AllZeroButMemory State.reset ∧ (∀ a : Addr, State.reset.load a = 0) ∧
  ∀ s : State,
    (AllZeroButMemory s.init ∧ ∀ a : Addr, s.init.load a = 0) ∧
    (AllZeroButMemory s.resetCommand ∧ SameWords s s.resetCommand)

/-- At reset the memory is in its canonical form and interrupt_enabled is 0. -/
def Obligations.ResetStateMeetsTheInvariant : Prop :=
  Inv State.reset

/-- From every state, reachable or not, whose memory is in canonical form (addresses rising within the 32768 words, no listed zero) and whose interrupt_enabled is 0, a step that answers a next state answers one of the same kind. -/
def Obligations.EveryStepKeepsTheInvariant : Prop :=
  ∀ s t : State, Inv s → step s = .next t → Inv t

/-- INIT, RESET, STEP, RUN with any budget, READ, WRITE, INSPECT and PRESET, when they complete, lead from a state that meets the invariant to a state that meets it. -/
def Obligations.EveryHostCommandKeepsTheInvariant : Prop :=
  ∀ (s t : State) (fuel : Nat) (c : Command) (r : Reply),
    Inv s → s.perform fuel c = .completed r t → Inv t

/-- For every instruction and state, exec answers a next state, unless the instruction is XEC, XEC_DEPTH_LIMIT is none and following its chain of XECs with any fuel finds no end, and then the outcome is the named stuck fault, which stands for a step that never ends (I8, log 6). Nothing is ever refused. -/
def Obligations.OnlyAnEndlessXecStops : Prop :=
  ∀ (i : Instr) (s : State),
    (∃ t : State, exec i s = .next t) ∨
    (i.opcode = 0o02#6 ∧ Config.xecDepthLimit = none ∧ NeverEnds none i.fields s ∧ exec i s = .fault .xecNeverEnds)

/-! ### What each kind of state is written by -/

/-- If exec answers t: overflow that was 1 is still 1, for every instruction, XEC included; and it is unchanged unless the instruction, or the last word of its XEC chain however long, is ADD, SUB or DIV. -/
def Obligations.OverflowIsStickyAndWrittenByThreeInstructions : Prop :=
  ∀ (i : Instr) (s t : State), exec i s = .next t →
    (s.overflow = true → t.overflow = true) ∧
    ∀ (n : Nat) (j : Instr) (u : State), ChainEndsIn Config.xecDepthLimit i s n j u →
      (j.opcode ∉ [0o10#6, 0o11#6, 0o35#6] → t.overflow = s.overflow)

/-- exec keeps interrupt_enabled; exec from a state that differs in that bit alone answers a state that differs in that bit alone; INSPECT and PRESET of it are refused; INIT and RESET make it 0; and where it is 0, it is 0 after every completed host command. That no host command writes it is the spec's own decision D3 (log 14). -/
def Obligations.InterruptEnabledIsNeverWritten : Prop :=
  (∀ (i : Instr) (s t : State) (b : Bool), exec i s = .next t →
    t.interruptEnabled = s.interruptEnabled ∧
    exec i { s with interruptEnabled := b } = .next { t with interruptEnabled := b }) ∧
  (∀ (s : State) (v : Nat), s.inspect .interruptEnabled = none ∧ s.preset v .interruptEnabled = none ∧
    s.init.interruptEnabled = false ∧ s.resetCommand.interruptEnabled = false) ∧
  (∀ (s t : State) (fuel : Nat) (c : Command) (r : Reply), s.interruptEnabled = false →
    s.perform fuel c = .completed r t → t.interruptEnabled = false)

/-- If exec answers t, and j is the instruction, or for an XEC the last word of its chain however long: A is unchanged unless j is LDA, ADD, SUB, ANA, ORA, ERA, MPY, DIV, IAB, ARS or ALS; B is unchanged unless j is LDB, MPY, DIV, TAB or IAB. -/
def Obligations.AccumulatorsHaveTheirNamedWriters : Prop :=
  ∀ (i j : Instr) (s t u : State) (n : Nat), exec i s = .next t → ChainEndsIn Config.xecDepthLimit i s n j u →
    (j.opcode ∉ [0o24#6, 0o10#6, 0o11#6, 0o15#6, 0o16#6, 0o17#6, 0o34#6, 0o35#6, 0o57#6, 0o40#6, 0o41#6] → t.a = s.a) ∧
    (j.opcode ∉ [0o23#6, 0o34#6, 0o35#6, 0o55#6, 0o57#6] → t.b = s.b)

/-- If exec answers t, and j is the instruction, or for an XEC the last word of its chain however long: X[0] reads zero in t; every index register is unchanged unless j is LDX; LDX changes no index register but the one its selector names. -/
def Obligations.IndexRegistersHaveTheirNamedWriter : Prop :=
  ∀ (i j : Instr) (s t u : State) (n : Nat), exec i s = .next t → ChainEndsIn Config.xecDepthLimit i s n j u →
    t.readX .x0 = 0#15 ∧
    (j.opcode ≠ 0o56#6 → SameIndex s t) ∧
    (j.opcode = 0o56#6 → ∀ r : IndexReg, r ≠ j.fields.index → t.readX r = s.readX r)

/-- If exec answers t, and j is the instruction, or for an XEC the last word of its chain however long: every word reads as before unless j is STA, STB, JSL or SIX; for those four every word but the one at the effective address of j reads as before. -/
def Obligations.MemoryHasItsNamedWriters : Prop :=
  ∀ (i j : Instr) (s t u : State) (n : Nat), exec i s = .next t → ChainEndsIn Config.xecDepthLimit i s n j u →
    (j.opcode ∉ [0o05#6, 0o03#6, 0o27#6, 0o66#6] → SameWords s t) ∧
    (j.opcode ∈ [0o05#6, 0o03#6, 0o27#6, 0o66#6] → SameWordsBut (effectiveAddress j.fields s) s t)

/-- If exec answers t, and j is the instruction, or for an XEC the last word of its chain however long: no instruction clears halted; if j is one of the 28 implemented instructions but HLT and XEC, halted is unchanged; if j is one of the 28 but XEC, no diagnostic event is emitted. (A last word that is XEC is one that the depth limit stops.) -/
def Obligations.HaltedIsSetByHltAndDecodeErrorsOnly : Prop :=
  ∀ (i j : Instr) (s t u : State) (n : Nat), exec i s = .next t → ChainEndsIn Config.xecDepthLimit i s n j u →
    (s.halted = true → t.halted = true) ∧
    (j.opcode ∈ [0o03#6, 0o05#6, 0o10#6, 0o11#6, 0o12#6, 0o13#6, 0o15#6, 0o16#6, 0o17#6, 0o23#6, 0o24#6, 0o27#6, 0o34#6, 0o35#6, 0o40#6, 0o41#6, 0o55#6, 0o56#6, 0o57#6, 0o66#6, 0o70#6, 0o71#6, 0o72#6, 0o73#6, 0o74#6, 0o77#6] →
      t.halted = s.halted) ∧
    (j.opcode ∈ [0o00#6, 0o03#6, 0o05#6, 0o10#6, 0o11#6, 0o12#6, 0o13#6, 0o15#6, 0o16#6, 0o17#6, 0o23#6, 0o24#6, 0o27#6, 0o34#6, 0o35#6, 0o40#6, 0o41#6, 0o55#6, 0o56#6, 0o57#6, 0o66#6, 0o70#6, 0o71#6, 0o72#6, 0o73#6, 0o74#6, 0o77#6] →
      t.diagLog = s.diagLog)

/-- If exec of any instruction, XEC chains included, answers t from a state, then from the state that differs only in overflow = 1 it answers the state that differs from t only in overflow = 1. -/
def Obligations.NoInstructionReadsTheOverflowFlag : Prop :=
  ∀ (i : Instr) (s t : State), exec i s = .next t →
    exec i { s with overflow := true } = .next { t with overflow := true }

/-- If exec of any instruction, XEC chains included, answers t from a state, then from the state whose cycles is greater by c (modulo 2^64) it answers t with cycles greater by c, and nothing else differs. -/
def Obligations.NoResultDependsOnTheCycleCount : Prop :=
  ∀ (i : Instr) (s t : State) (c : CycleCount), exec i s = .next t →
    exec i { s with cycles := s.cycles + c } = .next { t with cycles := t.cycles + c }

/-! ### HLT, NOP and the unimplemented opcodes -/

/-- HLT completes from every state: halted becomes 1, PC becomes PC - 1 modulo 32768 (the HLT's own address, since PC is fa + 1), cycles grows by 5; A, B, X, overflow, interrupt_enabled and every word are unchanged and no diagnostic is emitted. -/
def Obligations.HltHaltsAtItsOwnAddress : Prop :=
  ∀ (f : Fields) (s : State), ∃ t : State, exec (.hlt f) s = .next t ∧ t.halted = true ∧
    t.pc.toNat = (s.pc.toNat + 32767) % 32768 ∧ (∀ fa : Addr, s.pc = fa + 1#15 → t.pc = fa) ∧
    t.a = s.a ∧ t.b = s.b ∧ t.overflow = s.overflow ∧ t.interruptEnabled = s.interruptEnabled ∧
    t.diagLog = s.diagLog ∧ SameIndex s t ∧ SameWords s t ∧ Charged 5 s t

/-- If a step of a machine that is not halted runs a HLT and answers t, then running any number of steps from t answers t. -/
def Obligations.SteppingAfterHltChangesNothing : Prop :=
  ∀ (s t : State) (f : Fields) (n : Nat), s.halted = false → decode s.fetchWord = .hlt f → step s = .next t →
    Sys2Proof.core.run n t = .next t

/-- NOP completes from every state, with every value of its fields: A, B, X, PC (already one past the NOP), overflow, the control state and every word are unchanged; cycles grows by 5. -/
def Obligations.NopChangesOnlyTheCycleCount : Prop :=
  ∀ (f : Fields) (s : State), CompletesAsJump (.nop f) false 0#15 5 s

/-- Each of the 36 completes from every state, whatever its fields: halted becomes 1, one event DIAG(op, fa) with its opcode and its fetch address PC - 1 is emitted, cycles grows by COST_UNIMPL, and A, B, X, PC (it stays fa + 1), overflow, interrupt_enabled and every word are unchanged. That PC is not rewound is the spec's own inference (R404). -/
def Obligations.UnimplementedOpcodeIsADecodeError : Prop :=
  ∀ (f : Fields) (s : State) (i : Instr),
    i ∈ ([.unimpl01 f, .unimpl04 f, .unimpl06 f, .unimpl07 f, .unimpl14 f, .unimpl20 f, .unimpl21 f, .unimpl22 f, .unimpl25 f,
      .unimpl26 f, .unimpl30 f, .unimpl31 f, .unimpl32 f, .unimpl33 f, .unimpl36 f, .unimpl37 f, .unimpl42 f, .unimpl43 f,
      .unimpl44 f, .unimpl45 f, .unimpl46 f, .unimpl47 f, .unimpl50 f, .unimpl51 f, .unimpl52 f, .unimpl53 f, .unimpl54 f,
      .unimpl60 f, .unimpl61 f, .unimpl62 f, .unimpl63 f, .unimpl64 f, .unimpl65 f, .unimpl67 f, .unimpl75 f, .unimpl76 f] : List Instr) →
    ∃ t : State, exec i s = .next t ∧ t.halted = true ∧ t.diagLog = s.diagLog ++ [⟨i.opcode, s.pc - 1#15⟩] ∧
      t.a = s.a ∧ t.b = s.b ∧ t.pc = s.pc ∧ t.overflow = s.overflow ∧ t.interruptEnabled = s.interruptEnabled ∧
      SameIndex s t ∧ SameWords s t ∧ Charged Config.costUnimpl s t

/-! ### Loads and stores -/

/-- LDA and LDB complete from every state: the register gets the 24-bit word at the effective address unchanged (-0 included), cycles grows by 10; the other accumulator, X, PC, overflow, the control state and every word are unchanged. -/
def Obligations.LoadsCopyTheWholeWord : Prop :=
  ∀ (f : Fields) (s : State),
    (∃ t : State, exec (.lda f) s = .next t ∧ t.a = s.load (effectiveAddress f s) ∧ t.b = s.b ∧ t.pc = s.pc ∧
      t.overflow = s.overflow ∧ SameButRegisters 10 s t) ∧
    (∃ t : State, exec (.ldb f) s = .next t ∧ t.b = s.load (effectiveAddress f s) ∧ t.a = s.a ∧ t.pc = s.pc ∧
      t.overflow = s.overflow ∧ SameButRegisters 10 s t)

/-- STA and STB complete from every state whose memory is canonical: the word at the effective address (formed before the store) reads as the stored register, every other word, all registers, PC and the flags are unchanged, cycles grows by 10. -/
def Obligations.StoresWriteTheWholeWordAtTheEffectiveAddress : Prop :=
  ∀ (f : Fields) (s : State), s.memory.wf = true →
    CompletesAsStore (.sta f) (effectiveAddress f s) s.a s.pc 10 s ∧
    CompletesAsStore (.stb f) (effectiveAddress f s) s.b s.pc 10 s

/-! ### Add, subtract and the logical operations -/

/-- ADD completes from every state. With v = to_signed(A) + to_signed(M): overflow becomes 1 if |v| > 2^23 - 1 and is otherwise unchanged; if |v| <= 2^23 - 1 then to_signed of the new A is v, and a zero sum is +0. B, X, PC, the control state and every word are unchanged. (The word A gets on overflow is not claimed here, log 7.) -/
def Obligations.AddGivesTheSignedSumInRange : Prop :=
  ∀ (f : Fields) (s : State) (v : Int), v = toSigned s.a + toSigned (operandM f s) →
    ∃ t : State, exec (.add f) s = .next t ∧
      (t.overflow = true ↔ s.overflow = true ∨ 8388607 < v.natAbs) ∧
      (v.natAbs ≤ 8388607 → toSigned t.a = v ∧ (v = 0 → t.a = 0#24)) ∧
      t.b = s.b ∧ t.pc = s.pc ∧ SameButRegisters 10 s t

/-- SUB completes from every state. With v = to_signed(A) - to_signed(M): overflow becomes 1 if |v| > 2^23 - 1 and is otherwise unchanged; if |v| <= 2^23 - 1 then to_signed of the new A is v, and a zero difference is +0. B, X, PC, the control state and every word are unchanged. (The word A gets on overflow is not claimed here, log 7.) -/
def Obligations.SubGivesTheSignedDifferenceInRange : Prop :=
  ∀ (f : Fields) (s : State) (v : Int), v = toSigned s.a - toSigned (operandM f s) →
    ∃ t : State, exec (.sub f) s = .next t ∧
      (t.overflow = true ↔ s.overflow = true ∨ 8388607 < v.natAbs) ∧
      (v.natAbs ≤ 8388607 → toSigned t.a = v ∧ (v = 0 → t.a = 0#24)) ∧
      t.b = s.b ∧ t.pc = s.pc ∧ SameButRegisters 10 s t

/-- If ADD or SUB answers t and the exact result v has |v| > 2^23 - 1, the sign bit of the new A is set exactly when v < 0 and its magnitude is |v| mod 2^23. The spec marks this value as derived and not stated by its source (I3): log 7. -/
def Obligations.OverflowingSumKeepsSignAndLowMagnitude : Prop :=
  ∀ (f : Fields) (s t : State) (i : Instr) (v : Int),
    (i = .add f ∧ v = toSigned s.a + toSigned (operandM f s) ∨ i = .sub f ∧ v = toSigned s.a - toSigned (operandM f s)) →
    8388607 < v.natAbs → exec i s = .next t →
      (sgn t.a = true ↔ v < 0) ∧ (mag t.a).toNat = v.natAbs % 8388608

/-- If ADD answers t with |sum| <= 2^23 - 1, then SUB of the same word M from t completes, leaves overflow as the ADD left it, gives to_signed(A) back, and gives the word back exactly, but that -0 comes back as +0. -/
def Obligations.AddThenSubRestoresA : Prop :=
  ∀ (f g : Fields) (s t : State), (toSigned s.a + toSigned (operandM f s)).natAbs ≤ 8388607 →
    exec (.add f) s = .next t → operandM g t = operandM f s →
    ∃ u : State, exec (.sub g) t = .next u ∧ u.overflow = s.overflow ∧ toSigned u.a = toSigned s.a ∧
      u.a = (if s.a = 0o40000000#24 then 0#24 else s.a)

/-- Each completes from every state: every bit of the new A is the and, or, exclusive or of that bit of A and of M, sign bit included; B, X, PC, overflow, the control state and every word are unchanged; cycles grows by 10. -/
def Obligations.LogicalOperationsActOnEveryBit : Prop :=
  ∀ (f : Fields) (s : State),
    CompletesInA (.ana f) (fun r => ∀ k : Nat, r.getLsbD k = (s.a.getLsbD k && (operandM f s).getLsbD k)) 10 s ∧
    CompletesInA (.ora f) (fun r => ∀ k : Nat, r.getLsbD k = (s.a.getLsbD k || (operandM f s).getLsbD k)) 10 s ∧
    CompletesInA (.era f) (fun r => ∀ k : Nat, r.getLsbD k = (s.a.getLsbD k ^^ (operandM f s).getLsbD k)) 10 s

/-! ### Multiply and divide -/

/-- MPY completes from every state: mag(A) * 2^23 + mag(B) of the result is mag(B) * mag(M); if that product is nonzero both sign bits are sgn(B) xor sgn(M), and if it is zero both registers are +0; overflow, X, PC, the control state and every word are unchanged; cycles grows by 28. -/
def Obligations.MpyGivesTheExactProduct : Prop :=
  ∀ (f : Fields) (s : State), ∃ t : State, exec (.mpy f) s = .next t ∧
    (mag t.a).toNat * 8388608 + (mag t.b).toNat = (mag s.b).toNat * (mag (operandM f s)).toNat ∧
    ((mag s.b).toNat * (mag (operandM f s)).toNat ≠ 0 →
      sgn t.a = (sgn s.b ^^ sgn (operandM f s)) ∧ sgn t.b = (sgn s.b ^^ sgn (operandM f s))) ∧
    ((mag s.b).toNat * (mag (operandM f s)).toNat = 0 → t.a = 0#24 ∧ t.b = 0#24) ∧
    t.pc = s.pc ∧ t.overflow = s.overflow ∧ SameButRegisters 28 s t

/-- DIV completes from every state. If mag(A) >= mag(M): overflow becomes 1, A and B are unchanged. Otherwise, with d = mag(A) * 2^23 + mag(B): mag(B) becomes d div mag(M) with sign sgn(A) xor sgn(M) if nonzero, mag(A) becomes d mod mag(M) with sign sgn(A) if nonzero, a zero result is +0, and overflow is unchanged. X, PC, the control state and every word are unchanged; cycles grows by 44 either way. -/
def Obligations.DivGivesQuotientAndRemainderOrSetsOverflow : Prop :=
  ∀ (f : Fields) (s : State) (d : Nat), d = (mag s.a).toNat * 8388608 + (mag s.b).toNat →
    ∃ t : State, exec (.div f) s = .next t ∧ t.pc = s.pc ∧ SameButRegisters 44 s t ∧
      ((mag (operandM f s)).toNat ≤ (mag s.a).toNat → t.overflow = true ∧ t.a = s.a ∧ t.b = s.b) ∧
      ((mag s.a).toNat < (mag (operandM f s)).toNat →
        t.overflow = s.overflow ∧
        (mag t.b).toNat = d / (mag (operandM f s)).toNat ∧ (mag t.a).toNat = d % (mag (operandM f s)).toNat ∧
        (sgn t.b = true ↔ (mag t.b).toNat ≠ 0 ∧ (sgn s.a ^^ sgn (operandM f s)) = true) ∧
        (sgn t.a = true ↔ (mag t.a).toNat ≠ 0 ∧ sgn s.a = true))

/-- If DIV answers t and mag(A) < mag(M), then (-1)^sgn(A) * (mag(A) * 2^23 + mag(B)) = to_signed(B') * to_signed(M) + to_signed(A') for the new B' and A', and |to_signed(A')| < mag(M). -/
def Obligations.ProperDivideMeetsTheDivisionEquation : Prop :=
  ∀ (f : Fields) (s t : State), (mag s.a).toNat < (mag (operandM f s)).toNat → exec (.div f) s = .next t →
    (if sgn s.a then -(((mag s.a).toNat * 8388608 + (mag s.b).toNat : Nat) : Int)
      else (((mag s.a).toNat * 8388608 + (mag s.b).toNat : Nat) : Int)) =
        toSigned t.b * toSigned (operandM f s) + toSigned t.a ∧
    (toSigned t.a).natAbs < (mag (operandM f s)).toNat

/-- If MPY answers t, and DIV by a word equal to the same operand M with mag(M) nonzero follows, the DIV completes, leaves overflow unchanged, gives A = +0, and gives B the original word exactly, but that -0 comes back as +0. -/
def Obligations.MpyThenDivRecoversB : Prop :=
  ∀ (f g : Fields) (s t : State), (mag (operandM f s)).toNat ≠ 0 → exec (.mpy f) s = .next t →
    operandM g t = operandM f s →
    ∃ u : State, exec (.div g) t = .next u ∧ u.overflow = s.overflow ∧ u.a = 0#24 ∧
      u.b = (if s.b = 0o40000000#24 then 0#24 else s.b)

/-! ### Jumps, the subroutine link and skips -/

/-- Each completes from every state, and changes only PC and cycles: JMP sets PC to ea at cost 5; at cost 6, taken or not, JPL jumps exactly if to_signed(A) > 0, JMI exactly if bit 23 of A is set (-0 included), JZE exactly if to_signed(A) = 0 (both zeros), JNZ exactly if to_signed(A) is not 0; a jump not taken leaves PC at fa + 1. -/
def Obligations.JumpsTestTheConditionTheyName : Prop :=
  ∀ (f : Fields) (s : State),
    CompletesAsJump (.jmp f) true (effectiveAddress f s) 5 s ∧
    CompletesAsJump (.jpl f) (decide (0 < toSigned s.a)) (effectiveAddress f s) 6 s ∧
    CompletesAsJump (.jmi f) (s.a.getLsbD 23) (effectiveAddress f s) 6 s ∧
    CompletesAsJump (.jze f) (decide (toSigned s.a = 0)) (effectiveAddress f s) 6 s ∧
    CompletesAsJump (.jnz f) (decide (toSigned s.a ≠ 0)) (effectiveAddress f s) 6 s

/-- JSL completes from every state whose memory is canonical: the word at ea reads as the 15-bit PC with nine zero bits above it, PC becomes (ea + 1) mod 32768, every other word, the registers and flags are unchanged, cycles grows by 10. -/
def Obligations.JslStoresTheReturnAddressAndJumpsPastIt : Prop :=
  ∀ (f : Fields) (s : State), s.memory.wf = true →
    CompletesAsStore (.jsl f) (effectiveAddress f s) (BitVec.ofNat 24 s.pc.toNat) (effectiveAddress f s + 1#15) 10 s

/-- If JSL answers t from a canonical memory, then JMP with the indirect bit, no index and the JSL's ea as its address field, executed in any state whose word at that ea is that of t, sets PC to the PC the JSL ran with (fa + 1). -/
def Obligations.JslThenIndirectJumpReturns : Prop :=
  ∀ (f : Fields) (s t u : State), s.memory.wf = true → exec (.jsl f) s = .next t →
    u.load (effectiveAddress f s) = t.load (effectiveAddress f s) →
    ∃ v : State, exec (.jmp ⟨true, .x0, effectiveAddress f s⟩) u = .next v ∧ v.pc = s.pc

/-- Each completes from every state and changes only PC and cycles: a taken skip makes PC one greater modulo 32768, otherwise PC stays fa + 1; SKG compares the signed values (both zeros equal), SKN the 24 bits. -/
def Obligations.SkipsCompareAsTheirRulesSay : Prop :=
  ∀ (f : Fields) (s : State),
    CompletesAsJump (.skg f) (decide (toSigned (operandM f s) < toSigned s.a)) (s.pc + 1#15) 10 s ∧
    CompletesAsJump (.skn f) (decide (s.a ≠ operandM f s)) (s.pc + 1#15) 10 s

/-! ### Register transfers and index registers -/

/-- Both complete from every state. TAB: B becomes A, A unchanged. IAB: A becomes B and B becomes A; IAB again gives both back. X, PC, overflow, the control state and every word are unchanged. -/
def Obligations.TabCopiesAndIabInterchanges : Prop :=
  ∀ (f g : Fields) (s : State),
    (∃ t : State, exec (.tab f) s = .next t ∧ t.b = s.a ∧ t.a = s.a ∧ t.pc = s.pc ∧ t.overflow = s.overflow ∧
      SameButRegisters 5 s t) ∧
    (∃ t : State, exec (.iab f) s = .next t ∧ t.a = s.b ∧ t.b = s.a ∧ t.pc = s.pc ∧ t.overflow = s.overflow ∧
      SameButRegisters 10 s t ∧
      ∃ u : State, exec (.iab g) t = .next u ∧ u.a = s.a ∧ u.b = s.b)

/-- LDX completes from every state. With selector 1, 2 or 3, the selected register becomes M mod 2^15, where M is read at the ea formed with the register's old value, and the other index registers are unchanged; with selector 0 every index register is unchanged. A, B, PC, overflow, the control state and every word are unchanged; cycles grows by 5. -/
def Obligations.LdxLoadsTheSelectedIndexRegister : Prop :=
  ∀ (f : Fields) (s : State), ∃ t : State, exec (.ldx f) s = .next t ∧
    (f.index ≠ .x0 → (t.readX f.index).toNat = (s.load (effectiveAddress f s)).toNat % 32768) ∧
    (f.index = .x0 → SameIndex s t) ∧ (∀ r : IndexReg, r ≠ f.index → t.readX r = s.readX r) ∧
    t.a = s.a ∧ t.b = s.b ∧ t.pc = s.pc ∧ t.overflow = s.overflow ∧
    SameWords s t ∧ SameControl s t ∧ Charged 5 s t

/-- SIX completes from every state whose memory is canonical: the word at ea reads as the selected register with nine zero bits above it (the word 0 for selector 0), every other word, the registers, PC and flags are unchanged, cycles grows by 10. -/
def Obligations.SixStoresTheSelectedIndexRegister : Prop :=
  ∀ (f : Fields) (s : State), s.memory.wf = true →
    CompletesAsStore (.six f) (effectiveAddress f s)
      (if f.index = .x0 then 0#24 else BitVec.ofNat 24 (s.readX f.index).toNat) s.pc 10 s

/-! ### Shifts -/

/-- Both complete from every state. With n = ea mod 32: ARS makes mag(A) mag(A) div 2^n, ALS makes it (mag(A) * 2^n) mod 2^23; the sign bit is unchanged; B, X, PC, overflow, the control state and every word are unchanged; cycles grows by 5 + n. -/
def Obligations.ShiftsMoveTheMagnitudeOnly : Prop :=
  ∀ (f : Fields) (s : State) (n : Nat), n = (effectiveAddress f s).toNat % 32 →
    CompletesInA (.ars f) (fun r => sgn r = sgn s.a ∧ (mag r).toNat = (mag s.a).toNat / 2 ^ n) (5 + n) s ∧
    CompletesInA (.als f) (fun r => sgn r = sgn s.a ∧ (mag r).toNat = (mag s.a).toNat * 2 ^ n % 8388608) (5 + n) s

/-! ### XEC -/

/-- If the word at the XEC's effective address decodes to an instruction other than XEC, XEC completes, and its outcome is that instruction's outcome from the same state with PC = ea + 1 modulo 32768 and cycles 5 greater: every change of PC it makes stands, and its cost is counted once. -/
def Obligations.XecRunsTheWordAtItsEffectiveAddress : Prop :=
  ∀ (f : Fields) (s : State) (j : Instr), decode (s.load (effectiveAddress f s)) = j → j.opcode ≠ 0o02#6 →
    exec (.xec f) s = exec j { s with pc := effectiveAddress f s + 1#15, cycles := s.cycles + 5#64 } ∧
    ∃ t : State, exec (.xec f) s = .next t

/-- Consequences of XEC with target word at ea, for every target that is no XEC: (a) each of the 18 instructions that leave PC alone leaves PC = ea + 1; (b) SKG and SKN leave PC = ea + 2 if they skip and ea + 1 if not; a jump that is taken sets PC to its own ea, and one that is not leaves ea + 1; (c) JSL from a canonical memory stores ea + 1 as the return address and jumps past its own ea; (d) HLT leaves PC = ea with halted set; (e) each of the 36 unimplemented opcodes leaves PC = ea + 1, halts, emits DIAG of its opcode and ea, and charges 5 + COST_UNIMPL. The costs of (b), the jumps, (c) and (d) are 5 more than the target's. -/
def Obligations.XecDoesNotReturn : Prop :=
  ∀ (f : Fields) (s : State) (ea : Addr) (j : Instr), ea = effectiveAddress f s → decode (s.load ea) = j →
    (j.opcode ∈ [0o77#6, 0o24#6, 0o23#6, 0o05#6, 0o03#6, 0o10#6, 0o11#6, 0o15#6, 0o16#6, 0o17#6, 0o34#6, 0o35#6, 0o40#6,
        0o41#6, 0o55#6, 0o57#6, 0o56#6, 0o66#6] →
      ∃ t : State, exec (.xec f) s = .next t ∧ t.pc = ea + 1#15) ∧
    (∀ g : Fields, j = .skg g → XecLeavesPc f s (if toSigned (operandM g s) < toSigned s.a then ea + 2#15 else ea + 1#15) 15) ∧
    (∀ g : Fields, j = .skn g → XecLeavesPc f s (if s.a ≠ operandM g s then ea + 2#15 else ea + 1#15) 15) ∧
    (∀ g : Fields, j = .jmp g → XecLeavesPc f s (effectiveAddress g s) 10) ∧
    (∀ g : Fields, j = .jpl g → XecLeavesPc f s (if 0 < toSigned s.a then effectiveAddress g s else ea + 1#15) 11) ∧
    (∀ g : Fields, j = .jmi g → XecLeavesPc f s (if sgn s.a = true then effectiveAddress g s else ea + 1#15) 11) ∧
    (∀ g : Fields, j = .jze g → XecLeavesPc f s (if toSigned s.a = 0 then effectiveAddress g s else ea + 1#15) 11) ∧
    (∀ g : Fields, j = .jnz g → XecLeavesPc f s (if toSigned s.a ≠ 0 then effectiveAddress g s else ea + 1#15) 11) ∧
    (∀ g : Fields, j = .jsl g → s.memory.wf = true →
      ∃ t : State, exec (.xec f) s = .next t ∧ t.load (effectiveAddress g s) = BitVec.ofNat 24 (ea + 1#15).toNat ∧
        t.pc = effectiveAddress g s + 1#15 ∧ Charged 15 s t) ∧
    (∀ g : Fields, j = .hlt g → ∃ t : State, exec (.xec f) s = .next t ∧ t.pc = ea ∧ t.halted = true ∧ Charged 10 s t) ∧
    (j.opcode ∈ [0o01#6, 0o04#6, 0o06#6, 0o07#6, 0o14#6, 0o20#6, 0o21#6, 0o22#6, 0o25#6, 0o26#6, 0o30#6, 0o31#6, 0o32#6,
        0o33#6, 0o36#6, 0o37#6, 0o42#6, 0o43#6, 0o44#6, 0o45#6, 0o46#6, 0o47#6, 0o50#6, 0o51#6, 0o52#6,
        0o53#6, 0o54#6, 0o60#6, 0o61#6, 0o62#6, 0o63#6, 0o64#6, 0o65#6, 0o67#6, 0o75#6, 0o76#6] →
      ∃ t : State, exec (.xec f) s = .next t ∧ t.pc = ea + 1#15 ∧ t.halted = true ∧
        t.diagLog = s.diagLog ++ [⟨j.opcode, ea⟩] ∧ Charged (5 + Config.costUnimpl) s t)

/-- With XEC_DEPTH_LIMIT = some L: an XEC met at a depth d with d + 1 > L, whatever fuel, changes only halted (to 1), emits DIAG(0o02, its fetch address) and costs COST_UNIMPL, PC staying fa + 1; and the rule of the XEC a step fetches always has an effect. An XEC of an XEC nests: when a second XEC stands at ea and at its own ea a word that is no XEC, then with no limit or with L >= 2 the effect is that of the innermost instruction, at 10 more cost. -/
def Obligations.NestedXecObeysTheDepthLimit : Prop :=
  (∀ (l : DepthLimit) (fuel d : Nat) (f : Fields) (s : State), l.levels < d + 1 →
    nestedXec (some l) fuel d f s =
      some ⟨{ s with halted := true, diagLog := s.diagLog ++ [⟨0o02#6, s.pc - 1#15⟩] }, Config.costUnimpl⟩) ∧
  (∀ (l : DepthLimit) (f : Fields) (s : State), ∃ e : Effect, xecRule (some l) f s = some e) ∧
  (∀ (limit : Option DepthLimit) (f g : Fields) (s : State) (j : Instr) (e : Effect),
    (∀ l : DepthLimit, limit = some l → 2 ≤ l.levels) →
    decode (s.load (effectiveAddress f s)) = .xec g → decode (s.load (effectiveAddress g s)) = j →
    j.opcode ≠ 0o02#6 → instrRule j { s with pc := effectiveAddress g s + 1#15 } = some e →
    xecRule limit f s = some ⟨e.state, 10 + e.cost⟩)

/-- If the rule of XEC has no effect from a state, under whatever XEC_DEPTH_LIMIT, then that limit is none and following the chain of XECs with any fuel finds no end, and that is so exactly if the chain has no last word; exec of XEC answers the fault, which stands for a step that never ends (I8, log 6), exactly if the rule under the machine's own limit has no effect, and where that rule has an effect exec answers it, charged. So the fuel the model follows a chain with cuts no chain short: a chain that ends meets no address twice, hence ends within 32768 XECs. -/
def Obligations.StuckXecReallyNeverEnds : Prop :=
  ∀ (f : Fields) (s : State),
    (∀ limit : Option DepthLimit, xecRule limit f s = none → limit = none ∧ NeverEnds none f s) ∧
    (NeverEnds none f s ↔ ¬ ∃ (n : Nat) (j : Instr) (u : State), ChainEndsIn none (.xec f) s n j u) ∧
    (exec (.xec f) s = .fault .xecNeverEnds ↔ xecRule Config.xecDepthLimit f s = none) ∧
    (∀ e : Effect, xecRule Config.xecDepthLimit f s = some e → exec (.xec f) s = .next e.commit)

/-- If the word at the XEC's ea is itself an XEC with that same ea, then with XEC_DEPTH_LIMIT = none the rule has no effect with any fuel, and with some L the machine halts with DIAG(0o02, ea), PC = ea + 1, at cost 5 * L + COST_UNIMPL. That no effect stands for a step that never ends is the spec's treatment I8 (log 6). -/
def Obligations.SelfReferringXecIsStuck : Prop :=
  ∀ (f g : Fields) (s : State), decode (s.load (effectiveAddress f s)) = .xec g →
    effectiveAddress g s = effectiveAddress f s →
    xecRule none f s = none ∧ NeverEnds none f s ∧
    ∀ l : DepthLimit, xecRule (some l) f s =
      some ⟨{ s with pc := effectiveAddress f s + 1#15, halted := true, diagLog := s.diagLog ++ [⟨0o02#6, effectiveAddress f s⟩] },
        5 * l.levels + Config.costUnimpl⟩

/-- Under whatever XEC_DEPTH_LIMIT, the rule of an instruction has an effect exactly if its chain of XECs ends in a last word (itself, if it is no XEC). Whatever the length n of the chain, that word j is met in the original state with another PC; if j is no XEC, the effect is that of j there, at 5 * n more cost; if j is the XEC that the limit stops, halted becomes 1, DIAG(0o02, its fetch address) is emitted, the cost is 5 * n + COST_UNIMPL, and nothing else but PC changes. Under the machine's own limit, exec answers that effect, charged; and if j is no XEC, exec answers what exec of j answers from that state with cycles 5 * n greater. -/
def Obligations.XecChainHasTheOutcomeOfItsLastWord : Prop :=
  ∀ (i : Instr) (s : State),
    (∀ limit : Option DepthLimit,
      ((∃ e : Effect, ruleOf (xecRule limit) i s = some e) ↔
        ∃ (n : Nat) (j : Instr) (u : State), ChainEndsIn limit i s n j u) ∧
      ∀ (n : Nat) (j : Instr) (u : State), ChainEndsIn limit i s n j u →
        u = { s with pc := u.pc } ∧
        (j.opcode ≠ 0o02#6 →
          ∃ e : Effect, instrRule j u = some e ∧ ruleOf (xecRule limit) i s = some ⟨e.state, 5 * n + e.cost⟩) ∧
        (j.opcode = 0o02#6 →
          ruleOf (xecRule limit) i s =
            some ⟨{ u with halted := true, diagLog := s.diagLog ++ [⟨0o02#6, u.pc - 1#15⟩] }, 5 * n + Config.costUnimpl⟩)) ∧
    (∀ e : Effect, ruleOf (xecRule Config.xecDepthLimit) i s = some e → exec i s = .next e.commit) ∧
    (∀ (n : Nat) (j : Instr) (u : State), ChainEndsIn Config.xecDepthLimit i s n j u → j.opcode ≠ 0o02#6 →
      exec i s = exec j { u with cycles := s.cycles + BitVec.ofNat 64 (5 * n) })

/-! ### Costs, RUN and the host commands -/

/-- For every state: HLT, NOP, JMP, TAB and LDX add 5 to cycles; JPL, JMI, JZE, JNZ add 6; LDA, LDB, STA, STB, ADD, SUB, ANA, ORA, ERA, JSL, SKG, SKN, IAB, SIX add 10; MPY adds 28; DIV adds 44; ARS and ALS add 5 + ea mod 32; each unimplemented opcode adds COST_UNIMPL; and XEC of any instruction that is not an XEC adds 5 more than that instruction adds. -/
def Obligations.CostTable : Prop :=
  ∀ (f : Fields) (s : State),
    (∀ i ∈ ([.hlt f, .nop f, .jmp f, .tab f, .ldx f] : List Instr), ∃ t : State, exec i s = .next t ∧ Charged 5 s t) ∧
    (∀ i ∈ ([.jpl f, .jmi f, .jze f, .jnz f] : List Instr), ∃ t : State, exec i s = .next t ∧ Charged 6 s t) ∧
    (∀ i ∈ ([.lda f, .ldb f, .sta f, .stb f, .add f, .sub f, .ana f, .ora f, .era f, .jsl f, .skg f, .skn f, .iab f,
        .six f] : List Instr), ∃ t : State, exec i s = .next t ∧ Charged 10 s t) ∧
    (∃ t : State, exec (.mpy f) s = .next t ∧ Charged 28 s t) ∧
    (∃ t : State, exec (.div f) s = .next t ∧ Charged 44 s t) ∧
    (∀ i ∈ ([.ars f, .als f] : List Instr), ∃ t : State, exec i s = .next t ∧
      Charged (5 + (effectiveAddress f s).toNat % 32) s t) ∧
    (∀ i ∈ ([.unimpl01 f, .unimpl04 f, .unimpl06 f, .unimpl07 f, .unimpl14 f, .unimpl20 f, .unimpl21 f, .unimpl22 f, .unimpl25 f,
      .unimpl26 f, .unimpl30 f, .unimpl31 f, .unimpl32 f, .unimpl33 f, .unimpl36 f, .unimpl37 f, .unimpl42 f, .unimpl43 f,
      .unimpl44 f, .unimpl45 f, .unimpl46 f, .unimpl47 f, .unimpl50 f, .unimpl51 f, .unimpl52 f, .unimpl53 f, .unimpl54 f,
      .unimpl60 f, .unimpl61 f, .unimpl62 f, .unimpl63 f, .unimpl64 f, .unimpl65 f, .unimpl67 f, .unimpl75 f, .unimpl76 f] : List Instr),
      ∃ t : State, exec i s = .next t ∧ Charged Config.costUnimpl s t) ∧
    (∀ (j : Instr) (c : Nat), decode (s.load (effectiveAddress f s)) = j → j.opcode ≠ 0o02#6 →
      (∀ t : State, exec j { s with pc := effectiveAddress f s + 1#15 } = .next t → Charged c s t) →
      ∃ t : State, exec (.xec f) s = .next t ∧ Charged (5 + c) s t)

/-- step answers t exactly if the STEP command completes with some cost c and state t; and then cycles of t is cycles of s plus c modulo 2^64. step answers the stuck fault exactly if STEP is stuck. -/
def Obligations.StepCommandReturnsTheCostItCharges : Prop :=
  ∀ (s : State) (fuel : Nat),
    (∀ t : State, step s = .next t ↔ ∃ c : Nat, s.perform fuel .step = .completed (.cost c) t) ∧
    (∀ (t : State) (c : Nat), s.perform fuel .step = .completed (.cost c) t → Charged c s t) ∧
    (step s = .fault .xecNeverEnds ↔ s.perform fuel .step = .stuck)

/-- RUN(budget) followed with fuel (log 15) returns total and t exactly if some number n of STEPs within the fuel leads to t at costs that sum to total, the loop's test (halted = 0 and (budget = 0 or the sum so far < budget)) holds before each of those n steps, and it fails after them: no step is made once the budget is met or the machine has halted. And then: t is halted or the budget is nonzero and total >= budget; cycles of t is cycles of s plus total modulo 2^64; following the RUN with more fuel gives the same; if s was halted then total = 0 and t = s; and if s was not halted at least one step was made, the first one being step. -/
def Obligations.RunStopsAtHaltOrBudgetWithItsTotal : Prop :=
  ∀ (s t : State) (fuel total : Nat) (budget : BitVec 64),
    (s.run fuel budget = .finished total t ↔
      ∃ n : Nat, n ≤ fuel ∧ StepsCost s n total t ∧ ¬ BudgetAllows budget total t ∧
        ∀ (k c : Nat) (u : State), k < n → StepsCost s k c u → BudgetAllows budget c u) ∧
    (s.run fuel budget = .finished total t →
      (t.halted = true ∨ budget ≠ 0#64 ∧ budget.toNat ≤ total) ∧
      t.cycles = s.cycles + BitVec.ofNat 64 total ∧
      (∀ more : Nat, s.run (fuel + more) budget = .finished total t) ∧
      (s.halted = true → total = 0 ∧ t = s) ∧
      (s.halted = false → ∃ (u : State) (n : Nat), step s = .next u ∧ Sys2Proof.core.run n u = .next t))

/-- From a canonical memory: after WRITE(p, w), READ(q) returns w mod 2^24 if q and p are equal modulo 32768, and otherwise what it returned before; WRITE changes no register, flag, PC or cycles; READ changes no state. -/
def Obligations.HostWriteThenRead : Prop :=
  ∀ (s : State) (p q w fuel : Nat), s.memory.wf = true →
    ∃ t : State, s.perform fuel (.write p w) = .completed .done t ∧
      t = { s with memory := t.memory } ∧
      t.perform fuel (.read q) =
        .completed (.word (if q % 32768 = p % 32768 then BitVec.ofNat 24 w else s.load (BitVec.ofNat 15 q))) t ∧
      s.perform fuel (.read q) = .completed (.word (s.load (BitVec.ofNat 15 q))) s

/-- PRESET(r, v) completes for A, B (v mod 2^24), X[1], X[2], X[3], PC (v mod 2^15) and halted (v mod 2): INSPECT(r) then returns that value, INSPECT of every other register returns what it did, and memory, overflow, interrupt_enabled, cycles and the diagnostics are unchanged. PRESET of X[0], overflow, interrupt_enabled or cycles is refused and changes nothing. INSPECT of X[0] and interrupt_enabled is refused; INSPECT of the other nine returns their value; INSPECT changes no state. PRESET is the spec's own decision D3, and that INSPECT outside its surface is refused is the model's reading of it (log 14). -/
def Obligations.PresetThenInspect : Prop :=
  (∀ (s : State) (v fuel : Nat) (r : Register) (width : Nat),
    (r, width) ∈ ([(.a, 24), (.b, 24), (.x .x1, 15), (.x .x2, 15), (.x .x3, 15), (.pc, 15), (.halted, 1)] : List (Register × Nat)) →
    ∃ t : State, s.perform fuel (.preset r v) = .completed .done t ∧
      t.perform fuel (.inspect r) = .completed (.value (v % 2 ^ width)) t ∧
      (∀ q : Register, q ≠ r → t.inspect q = s.inspect q) ∧
      t.memory = s.memory ∧ t.interruptEnabled = s.interruptEnabled ∧ t.diagLog = s.diagLog) ∧
  (∀ (s : State) (v fuel : Nat) (r : Register), r ∈ ([.x .x0, .overflow, .interruptEnabled, .cycles] : List Register) →
    s.perform fuel (.preset r v) = .completed .refused s) ∧
  (∀ (s : State) (fuel : Nat),
    (∀ rv ∈ ([(.a, s.a.toNat), (.b, s.b.toNat), (.x .x1, s.x1.toNat), (.x .x2, s.x2.toNat), (.x .x3, s.x3.toNat), (.pc, s.pc.toNat),
        (.overflow, s.overflow.toNat), (.halted, s.halted.toNat), (.cycles, s.cycles.toNat)] : List (Register × Nat)),
      s.perform fuel (.inspect rv.1) = .completed (.value rv.2) s) ∧
    s.perform fuel (.inspect (.x .x0)) = .completed .refused s ∧
    s.perform fuel (.inspect .interruptEnabled) = .completed .refused s)

/-- From a canonical memory and for any image: for every N below 32768, if the image holds bytes 3N, 3N+1 and 3N+2 then memory[N] reads as b0 * 2^16 + b1 * 2^8 + b2, and otherwise as before; no register, flag or counter changes. That a trailing group of one or two bytes writes nothing is the spec's own choice (D11). -/
def Obligations.LoaderPlacesBigEndianWords : Prop :=
  ∀ (s : State) (image : List Byte), s.memory.wf = true →
    s.loadImage image = { s with memory := (s.loadImage image).memory } ∧
    ∀ n : Nat, n < 32768 →
      (3 * n + 2 < image.length →
        ((s.loadImage image).load (BitVec.ofNat 15 n)).toNat =
          (image.getD (3 * n) 0#8).toNat * 65536 + (image.getD (3 * n + 1) 0#8).toNat * 256 +
            (image.getD (3 * n + 2) 0#8).toNat) ∧
      (image.length ≤ 3 * n + 2 → (s.loadImage image).load (BitVec.ofNat 15 n) = s.load (BitVec.ofNat 15 n))
end

