-- ==== Sys2Proof/Laws/State.lean ====
section
/-! SUPPORT. What each named update of the state leaves in each field: one lemma per field per update, true by rfl. -/

namespace Sys2Proof.Machine

open Sys2Proof

variable (s : State)

/-! ### setA -/

@[simp] theorem State.setA_a (v : Word) : (s.setA v).a = v := rfl
@[simp] theorem State.setA_b (v : Word) : (s.setA v).b = s.b := rfl
@[simp] theorem State.setA_x1 (v : Word) : (s.setA v).x1 = s.x1 := rfl
@[simp] theorem State.setA_x2 (v : Word) : (s.setA v).x2 = s.x2 := rfl
@[simp] theorem State.setA_x3 (v : Word) : (s.setA v).x3 = s.x3 := rfl
@[simp] theorem State.setA_pc (v : Word) : (s.setA v).pc = s.pc := rfl
@[simp] theorem State.setA_memory (v : Word) : (s.setA v).memory = s.memory := rfl
@[simp] theorem State.setA_overflow (v : Word) : (s.setA v).overflow = s.overflow := rfl
@[simp] theorem State.setA_halted (v : Word) : (s.setA v).halted = s.halted := rfl
@[simp] theorem State.setA_interruptEnabled (v : Word) : (s.setA v).interruptEnabled = s.interruptEnabled := rfl
@[simp] theorem State.setA_cycles (v : Word) : (s.setA v).cycles = s.cycles := rfl
@[simp] theorem State.setA_diagLog (v : Word) : (s.setA v).diagLog = s.diagLog := rfl
@[simp] theorem State.setA_load (v : Word) (q : Addr) : (s.setA v).load q = s.load q := rfl
@[simp] theorem State.setA_readX (v : Word) (r : IndexReg) : (s.setA v).readX r = s.readX r := by cases r <;> rfl

/-! ### setB -/

@[simp] theorem State.setB_a (v : Word) : (s.setB v).a = s.a := rfl
@[simp] theorem State.setB_b (v : Word) : (s.setB v).b = v := rfl
@[simp] theorem State.setB_x1 (v : Word) : (s.setB v).x1 = s.x1 := rfl
@[simp] theorem State.setB_x2 (v : Word) : (s.setB v).x2 = s.x2 := rfl
@[simp] theorem State.setB_x3 (v : Word) : (s.setB v).x3 = s.x3 := rfl
@[simp] theorem State.setB_pc (v : Word) : (s.setB v).pc = s.pc := rfl
@[simp] theorem State.setB_memory (v : Word) : (s.setB v).memory = s.memory := rfl
@[simp] theorem State.setB_overflow (v : Word) : (s.setB v).overflow = s.overflow := rfl
@[simp] theorem State.setB_halted (v : Word) : (s.setB v).halted = s.halted := rfl
@[simp] theorem State.setB_interruptEnabled (v : Word) : (s.setB v).interruptEnabled = s.interruptEnabled := rfl
@[simp] theorem State.setB_cycles (v : Word) : (s.setB v).cycles = s.cycles := rfl
@[simp] theorem State.setB_diagLog (v : Word) : (s.setB v).diagLog = s.diagLog := rfl
@[simp] theorem State.setB_load (v : Word) (q : Addr) : (s.setB v).load q = s.load q := rfl
@[simp] theorem State.setB_readX (v : Word) (r : IndexReg) : (s.setB v).readX r = s.readX r := by cases r <;> rfl

/-! ### setPc -/

@[simp] theorem State.setPc_a (v : Addr) : (s.setPc v).a = s.a := rfl
@[simp] theorem State.setPc_b (v : Addr) : (s.setPc v).b = s.b := rfl
@[simp] theorem State.setPc_x1 (v : Addr) : (s.setPc v).x1 = s.x1 := rfl
@[simp] theorem State.setPc_x2 (v : Addr) : (s.setPc v).x2 = s.x2 := rfl
@[simp] theorem State.setPc_x3 (v : Addr) : (s.setPc v).x3 = s.x3 := rfl
@[simp] theorem State.setPc_pc (v : Addr) : (s.setPc v).pc = v := rfl
@[simp] theorem State.setPc_memory (v : Addr) : (s.setPc v).memory = s.memory := rfl
@[simp] theorem State.setPc_overflow (v : Addr) : (s.setPc v).overflow = s.overflow := rfl
@[simp] theorem State.setPc_halted (v : Addr) : (s.setPc v).halted = s.halted := rfl
@[simp] theorem State.setPc_interruptEnabled (v : Addr) : (s.setPc v).interruptEnabled = s.interruptEnabled := rfl
@[simp] theorem State.setPc_cycles (v : Addr) : (s.setPc v).cycles = s.cycles := rfl
@[simp] theorem State.setPc_diagLog (v : Addr) : (s.setPc v).diagLog = s.diagLog := rfl
@[simp] theorem State.setPc_load (v : Addr) (q : Addr) : (s.setPc v).load q = s.load q := rfl
@[simp] theorem State.setPc_readX (v : Addr) (r : IndexReg) : (s.setPc v).readX r = s.readX r := by cases r <;> rfl

/-! ### orOverflow -/

@[simp] theorem State.orOverflow_a (c : Bool) : (s.orOverflow c).a = s.a := rfl
@[simp] theorem State.orOverflow_b (c : Bool) : (s.orOverflow c).b = s.b := rfl
@[simp] theorem State.orOverflow_x1 (c : Bool) : (s.orOverflow c).x1 = s.x1 := rfl
@[simp] theorem State.orOverflow_x2 (c : Bool) : (s.orOverflow c).x2 = s.x2 := rfl
@[simp] theorem State.orOverflow_x3 (c : Bool) : (s.orOverflow c).x3 = s.x3 := rfl
@[simp] theorem State.orOverflow_pc (c : Bool) : (s.orOverflow c).pc = s.pc := rfl
@[simp] theorem State.orOverflow_memory (c : Bool) : (s.orOverflow c).memory = s.memory := rfl
@[simp] theorem State.orOverflow_overflow (c : Bool) : (s.orOverflow c).overflow = (s.overflow || c) := rfl
@[simp] theorem State.orOverflow_halted (c : Bool) : (s.orOverflow c).halted = s.halted := rfl
@[simp] theorem State.orOverflow_interruptEnabled (c : Bool) : (s.orOverflow c).interruptEnabled = s.interruptEnabled := rfl
@[simp] theorem State.orOverflow_cycles (c : Bool) : (s.orOverflow c).cycles = s.cycles := rfl
@[simp] theorem State.orOverflow_diagLog (c : Bool) : (s.orOverflow c).diagLog = s.diagLog := rfl
@[simp] theorem State.orOverflow_load (c : Bool) (q : Addr) : (s.orOverflow c).load q = s.load q := rfl
@[simp] theorem State.orOverflow_readX (c : Bool) (r : IndexReg) : (s.orOverflow c).readX r = s.readX r := by cases r <;> rfl

/-! ### setHalted -/

@[simp] theorem State.setHalted_a (h : Bool) : (s.setHalted h).a = s.a := rfl
@[simp] theorem State.setHalted_b (h : Bool) : (s.setHalted h).b = s.b := rfl
@[simp] theorem State.setHalted_x1 (h : Bool) : (s.setHalted h).x1 = s.x1 := rfl
@[simp] theorem State.setHalted_x2 (h : Bool) : (s.setHalted h).x2 = s.x2 := rfl
@[simp] theorem State.setHalted_x3 (h : Bool) : (s.setHalted h).x3 = s.x3 := rfl
@[simp] theorem State.setHalted_pc (h : Bool) : (s.setHalted h).pc = s.pc := rfl
@[simp] theorem State.setHalted_memory (h : Bool) : (s.setHalted h).memory = s.memory := rfl
@[simp] theorem State.setHalted_overflow (h : Bool) : (s.setHalted h).overflow = s.overflow := rfl
@[simp] theorem State.setHalted_halted (h : Bool) : (s.setHalted h).halted = h := rfl
@[simp] theorem State.setHalted_interruptEnabled (h : Bool) : (s.setHalted h).interruptEnabled = s.interruptEnabled := rfl
@[simp] theorem State.setHalted_cycles (h : Bool) : (s.setHalted h).cycles = s.cycles := rfl
@[simp] theorem State.setHalted_diagLog (h : Bool) : (s.setHalted h).diagLog = s.diagLog := rfl
@[simp] theorem State.setHalted_load (h : Bool) (q : Addr) : (s.setHalted h).load q = s.load q := rfl
@[simp] theorem State.setHalted_readX (h : Bool) (r : IndexReg) : (s.setHalted h).readX r = s.readX r := by cases r <;> rfl

/-! ### emitDiag -/

@[simp] theorem State.emitDiag_a (d : Diag) : (s.emitDiag d).a = s.a := rfl
@[simp] theorem State.emitDiag_b (d : Diag) : (s.emitDiag d).b = s.b := rfl
@[simp] theorem State.emitDiag_x1 (d : Diag) : (s.emitDiag d).x1 = s.x1 := rfl
@[simp] theorem State.emitDiag_x2 (d : Diag) : (s.emitDiag d).x2 = s.x2 := rfl
@[simp] theorem State.emitDiag_x3 (d : Diag) : (s.emitDiag d).x3 = s.x3 := rfl
@[simp] theorem State.emitDiag_pc (d : Diag) : (s.emitDiag d).pc = s.pc := rfl
@[simp] theorem State.emitDiag_memory (d : Diag) : (s.emitDiag d).memory = s.memory := rfl
@[simp] theorem State.emitDiag_overflow (d : Diag) : (s.emitDiag d).overflow = s.overflow := rfl
@[simp] theorem State.emitDiag_halted (d : Diag) : (s.emitDiag d).halted = s.halted := rfl
@[simp] theorem State.emitDiag_interruptEnabled (d : Diag) : (s.emitDiag d).interruptEnabled = s.interruptEnabled := rfl
@[simp] theorem State.emitDiag_cycles (d : Diag) : (s.emitDiag d).cycles = s.cycles := rfl
@[simp] theorem State.emitDiag_diagLog (d : Diag) : (s.emitDiag d).diagLog = (s.diagLog ++ [d]) := rfl
@[simp] theorem State.emitDiag_load (d : Diag) (q : Addr) : (s.emitDiag d).load q = s.load q := rfl
@[simp] theorem State.emitDiag_readX (d : Diag) (r : IndexReg) : (s.emitDiag d).readX r = s.readX r := by cases r <;> rfl

/-! ### addCycles -/

@[simp] theorem State.addCycles_a (c : Nat) : (s.addCycles c).a = s.a := rfl
@[simp] theorem State.addCycles_b (c : Nat) : (s.addCycles c).b = s.b := rfl
@[simp] theorem State.addCycles_x1 (c : Nat) : (s.addCycles c).x1 = s.x1 := rfl
@[simp] theorem State.addCycles_x2 (c : Nat) : (s.addCycles c).x2 = s.x2 := rfl
@[simp] theorem State.addCycles_x3 (c : Nat) : (s.addCycles c).x3 = s.x3 := rfl
@[simp] theorem State.addCycles_pc (c : Nat) : (s.addCycles c).pc = s.pc := rfl
@[simp] theorem State.addCycles_memory (c : Nat) : (s.addCycles c).memory = s.memory := rfl
@[simp] theorem State.addCycles_overflow (c : Nat) : (s.addCycles c).overflow = s.overflow := rfl
@[simp] theorem State.addCycles_halted (c : Nat) : (s.addCycles c).halted = s.halted := rfl
@[simp] theorem State.addCycles_interruptEnabled (c : Nat) : (s.addCycles c).interruptEnabled = s.interruptEnabled := rfl
@[simp] theorem State.addCycles_cycles (c : Nat) : (s.addCycles c).cycles = (s.cycles + BitVec.ofNat 64 c) := rfl
@[simp] theorem State.addCycles_diagLog (c : Nat) : (s.addCycles c).diagLog = s.diagLog := rfl
@[simp] theorem State.addCycles_load (c : Nat) (q : Addr) : (s.addCycles c).load q = s.load q := rfl
@[simp] theorem State.addCycles_readX (c : Nat) (r : IndexReg) : (s.addCycles c).readX r = s.readX r := by cases r <;> rfl

/-! ### store -/

@[simp] theorem State.store_a (p : Addr) (v : Word) : (s.store p v).a = s.a := rfl
@[simp] theorem State.store_b (p : Addr) (v : Word) : (s.store p v).b = s.b := rfl
@[simp] theorem State.store_x1 (p : Addr) (v : Word) : (s.store p v).x1 = s.x1 := rfl
@[simp] theorem State.store_x2 (p : Addr) (v : Word) : (s.store p v).x2 = s.x2 := rfl
@[simp] theorem State.store_x3 (p : Addr) (v : Word) : (s.store p v).x3 = s.x3 := rfl
@[simp] theorem State.store_pc (p : Addr) (v : Word) : (s.store p v).pc = s.pc := rfl
@[simp] theorem State.store_memory (p : Addr) (v : Word) : (s.store p v).memory = (s.memory.write p v) := rfl
@[simp] theorem State.store_overflow (p : Addr) (v : Word) : (s.store p v).overflow = s.overflow := rfl
@[simp] theorem State.store_halted (p : Addr) (v : Word) : (s.store p v).halted = s.halted := rfl
@[simp] theorem State.store_interruptEnabled (p : Addr) (v : Word) : (s.store p v).interruptEnabled = s.interruptEnabled := rfl
@[simp] theorem State.store_cycles (p : Addr) (v : Word) : (s.store p v).cycles = s.cycles := rfl
@[simp] theorem State.store_diagLog (p : Addr) (v : Word) : (s.store p v).diagLog = s.diagLog := rfl
@[simp] theorem State.store_readX (p : Addr) (v : Word) (r : IndexReg) : (s.store p v).readX r = s.readX r := by cases r <;> rfl

/-! ### writeX -/

@[simp] theorem State.writeX_a (r : IndexReg) (v : Addr) : (s.writeX r v).a = s.a := by cases r <;> rfl
@[simp] theorem State.writeX_b (r : IndexReg) (v : Addr) : (s.writeX r v).b = s.b := by cases r <;> rfl
@[simp] theorem State.writeX_pc (r : IndexReg) (v : Addr) : (s.writeX r v).pc = s.pc := by cases r <;> rfl
@[simp] theorem State.writeX_memory (r : IndexReg) (v : Addr) : (s.writeX r v).memory = s.memory := by cases r <;> rfl
@[simp] theorem State.writeX_overflow (r : IndexReg) (v : Addr) : (s.writeX r v).overflow = s.overflow := by cases r <;> rfl
@[simp] theorem State.writeX_halted (r : IndexReg) (v : Addr) : (s.writeX r v).halted = s.halted := by cases r <;> rfl
@[simp] theorem State.writeX_interruptEnabled (r : IndexReg) (v : Addr) : (s.writeX r v).interruptEnabled = s.interruptEnabled := by cases r <;> rfl
@[simp] theorem State.writeX_cycles (r : IndexReg) (v : Addr) : (s.writeX r v).cycles = s.cycles := by cases r <;> rfl
@[simp] theorem State.writeX_diagLog (r : IndexReg) (v : Addr) : (s.writeX r v).diagLog = s.diagLog := by cases r <;> rfl
@[simp] theorem State.writeX_load (r : IndexReg) (v q : Addr) : (s.writeX r v).load q = s.load q := by cases r <;> rfl

/-- A write reaches the register it names; `X[0]` reads zero whatever is written (R104). -/
@[simp] theorem State.readX_writeX_same (r : IndexReg) (v : Addr) :
    (s.writeX r v).readX r = if r = .x0 then 0#15 else v := by cases r <;> rfl

/-- A write reaches no other register. -/
theorem State.readX_writeX_other (r q : IndexReg) (v : Addr) (h : q ≠ r) :
    (s.writeX r v).readX q = s.readX q := by cases r <;> cases q <;> first | rfl | exact absurd rfl h

@[simp] theorem State.readX_x0 : s.readX .x0 = 0#15 := rfl
@[simp] theorem State.writeX_x0 (v : Addr) : s.writeX .x0 v = s := rfl

/-! ### advance, decodeError, commit, addCost -/

@[simp] theorem State.advance_a : s.advance.a = s.a := rfl
@[simp] theorem State.advance_b : s.advance.b = s.b := rfl
@[simp] theorem State.advance_x1 : s.advance.x1 = s.x1 := rfl
@[simp] theorem State.advance_x2 : s.advance.x2 = s.x2 := rfl
@[simp] theorem State.advance_x3 : s.advance.x3 = s.x3 := rfl
@[simp] theorem State.advance_pc : s.advance.pc = s.pc + 1#15 := rfl
@[simp] theorem State.advance_memory : s.advance.memory = s.memory := rfl
@[simp] theorem State.advance_overflow : s.advance.overflow = s.overflow := rfl
@[simp] theorem State.advance_halted : s.advance.halted = s.halted := rfl
@[simp] theorem State.advance_interruptEnabled : s.advance.interruptEnabled = s.interruptEnabled := rfl
@[simp] theorem State.advance_cycles : s.advance.cycles = s.cycles := rfl
@[simp] theorem State.advance_diagLog : s.advance.diagLog = s.diagLog := rfl
@[simp] theorem State.advance_load (q : Addr) : s.advance.load q = s.load q := rfl
@[simp] theorem State.advance_readX (r : IndexReg) : s.advance.readX r = s.readX r := by cases r <;> rfl

@[simp] theorem State.decodeError_a (op : Opcode) : (s.decodeError op).state.a = s.a := rfl
@[simp] theorem State.decodeError_b (op : Opcode) : (s.decodeError op).state.b = s.b := rfl
@[simp] theorem State.decodeError_x1 (op : Opcode) : (s.decodeError op).state.x1 = s.x1 := rfl
@[simp] theorem State.decodeError_x2 (op : Opcode) : (s.decodeError op).state.x2 = s.x2 := rfl
@[simp] theorem State.decodeError_x3 (op : Opcode) : (s.decodeError op).state.x3 = s.x3 := rfl
@[simp] theorem State.decodeError_pc (op : Opcode) : (s.decodeError op).state.pc = s.pc := rfl
@[simp] theorem State.decodeError_memory (op : Opcode) : (s.decodeError op).state.memory = s.memory := rfl
@[simp] theorem State.decodeError_overflow (op : Opcode) : (s.decodeError op).state.overflow = s.overflow := rfl
@[simp] theorem State.decodeError_halted (op : Opcode) : (s.decodeError op).state.halted = true := rfl
@[simp] theorem State.decodeError_interruptEnabled (op : Opcode) : (s.decodeError op).state.interruptEnabled = s.interruptEnabled := rfl
@[simp] theorem State.decodeError_cycles (op : Opcode) : (s.decodeError op).state.cycles = s.cycles := rfl
@[simp] theorem State.decodeError_diagLog (op : Opcode) : (s.decodeError op).state.diagLog = s.diagLog ++ [⟨op, s.pc - 1#15⟩] := rfl
@[simp] theorem State.decodeError_cost (op : Opcode) : (s.decodeError op).cost = Config.costUnimpl := rfl
@[simp] theorem State.decodeError_load (op : Opcode) (q : Addr) : (s.decodeError op).state.load q = s.load q := rfl
@[simp] theorem State.decodeError_readX (op : Opcode) (r : IndexReg) : (s.decodeError op).state.readX r = s.readX r := by
  cases r <;> rfl

@[simp] theorem Effect.commit_a (e : Effect) : e.commit.a = e.state.a := rfl
@[simp] theorem Effect.commit_b (e : Effect) : e.commit.b = e.state.b := rfl
@[simp] theorem Effect.commit_x1 (e : Effect) : e.commit.x1 = e.state.x1 := rfl
@[simp] theorem Effect.commit_x2 (e : Effect) : e.commit.x2 = e.state.x2 := rfl
@[simp] theorem Effect.commit_x3 (e : Effect) : e.commit.x3 = e.state.x3 := rfl
@[simp] theorem Effect.commit_pc (e : Effect) : e.commit.pc = e.state.pc := rfl
@[simp] theorem Effect.commit_memory (e : Effect) : e.commit.memory = e.state.memory := rfl
@[simp] theorem Effect.commit_overflow (e : Effect) : e.commit.overflow = e.state.overflow := rfl
@[simp] theorem Effect.commit_halted (e : Effect) : e.commit.halted = e.state.halted := rfl
@[simp] theorem Effect.commit_interruptEnabled (e : Effect) : e.commit.interruptEnabled = e.state.interruptEnabled := rfl
@[simp] theorem Effect.commit_cycles (e : Effect) : e.commit.cycles = e.state.cycles + BitVec.ofNat 64 e.cost := rfl
@[simp] theorem Effect.commit_diagLog (e : Effect) : e.commit.diagLog = e.state.diagLog := rfl
@[simp] theorem Effect.commit_load (e : Effect) (q : Addr) : e.commit.load q = e.state.load q := rfl
@[simp] theorem Effect.commit_readX (e : Effect) (r : IndexReg) : e.commit.readX r = e.state.readX r := by cases r <;> rfl
@[simp] theorem Effect.addCost_state (e : Effect) (c : Nat) : (e.addCost c).state = e.state := rfl
@[simp] theorem Effect.addCost_cost (e : Effect) (c : Nat) : (e.addCost c).cost = c + e.cost := rfl

/-- Charging a cost in two parts is charging it once. -/
theorem Effect.commit_addCost (e : Effect) (c : Nat) : (e.addCost c).commit = e.commit.addCycles c := by
  simp only [Effect.commit, Effect.addCost, State.addCycles, BitVec.ofNat_add]
  congr 1
  rw [BitVec.add_comm (BitVec.ofNat 64 c), BitVec.add_assoc]

@[simp] theorem settle_eq_next (e : Effect) (t : State) : settle e = .next t ↔ e.commit = t := by
  simp [settle]

/-! ### Operands do not depend on what they do not name -/

/-- `ea` depends on the index registers and the store alone. -/
theorem effectiveAddress_congr (f : Fields) {s t : State} (hx : ∀ r, t.readX r = s.readX r) (hm : ∀ q, t.load q = s.load q) :
    effectiveAddress f t = effectiveAddress f s := by
  simp only [effectiveAddress, indexedAddress, hx, hm]

/-- `M` depends on the index registers and the store alone. -/
theorem operandM_congr (f : Fields) {s t : State} (hx : ∀ r, t.readX r = s.readX r) (hm : ∀ q, t.load q = s.load q) :
    operandM f t = operandM f s := by
  rw [operandM, operandM, effectiveAddress_congr f hx hm, hm]

@[simp] theorem effectiveAddress_setPc (f : Fields) (v : Addr) : effectiveAddress f (s.setPc v) = effectiveAddress f s :=
  effectiveAddress_congr f (by simp) (by simp)

@[simp] theorem effectiveAddress_advance (f : Fields) : effectiveAddress f s.advance = effectiveAddress f s :=
  effectiveAddress_congr f (by simp) (by simp)

@[simp] theorem operandM_setPc (f : Fields) (v : Addr) : operandM f (s.setPc v) = operandM f s :=
  operandM_congr f (by simp) (by simp)

@[simp] theorem operandM_advance (f : Fields) : operandM f s.advance = operandM f s :=
  operandM_congr f (by simp) (by simp)

/-- A stored address is its 15 bits under nine zero bits (R202). -/
theorem wordOfAddr_eq (v : Addr) : wordOfAddr v = BitVec.ofNat 24 v.toNat := by
  apply BitVec.eq_of_toNat_eq
  simp [wordOfAddr]

/-- The address part of a stored address is that address. -/
@[simp] theorem addressPart_wordOfAddr (v : Addr) : addressPart (wordOfAddr v) = v := by
  apply BitVec.eq_of_toNat_eq
  simpa [addressPart, wordOfAddr] using v.isLt

end Sys2Proof.Machine
end

