-- ==== Sys2Proof/Laws/Memory.lean ====
section
/-! SUPPORT. The store: reads after writes, the canonical form, and that every memory operation keeps it. -/

namespace Sys2Proof.Machine

open Sys2Proof

/-! ### The list of cells -/

theorem Memory.wfFrom_mono {lo hi : Nat} (h : lo ≤ hi) : ∀ {m : Memory}, Memory.wfFrom hi m = true → Memory.wfFrom lo m = true
  | [], _ => rfl
  | (k, w) :: rest, hm => by
    simp only [Memory.wfFrom, Bool.and_eq_true, decide_eq_true_eq] at hm ⊢
    exact ⟨⟨⟨by omega, hm.1.1.2⟩, hm.1.2⟩, hm.2⟩

/-- An address below every listed one reads as an unlisted one. -/
theorem Memory.lookup_below {lo a : Nat} (h : a < lo) : ∀ {m : Memory}, Memory.wfFrom lo m = true → m.lookup a = unlistedWord
  | [], _ => rfl
  | (k, w) :: rest, hm => by
    simp only [Memory.wfFrom, Bool.and_eq_true, decide_eq_true_eq] at hm
    have hk : k ≠ a := by omega
    simp only [Memory.lookup, if_neg hk]
    exact Memory.lookup_below (by omega) hm.2

/-- Reading another address than the one written gives what it gave, in any list of cells. -/
theorem Memory.lookup_insert_other {a c : Nat} (v : Word) (h : c ≠ a) :
    ∀ m : Memory, (m.insert a v).lookup c = m.lookup c
  | [] => by
    by_cases hv : v = unlistedWord
    · simp [Memory.insert, hv]
    · simp [Memory.insert, hv, Memory.lookup, Ne.symm h]
  | (k, w) :: rest => by
    have ih := Memory.lookup_insert_other v h rest
    simp only [Memory.insert]
    split
    · split
      · rfl
      · simp [Memory.lookup, Ne.symm h]
    · split
      · rename_i hk
        subst hk
        split <;> simp [Memory.lookup, Ne.symm h]
      · simp only [Memory.lookup, ih]

/-- Reading the address written gives the word written, where the cells are in canonical form. -/
theorem Memory.lookup_insert_same {a : Nat} (v : Word) :
    ∀ {lo : Nat} {m : Memory}, Memory.wfFrom lo m = true → (m.insert a v).lookup a = v
  | _, [], _ => by
    by_cases hv : v = unlistedWord
    · simp [Memory.insert, hv, Memory.lookup]
    · simp [Memory.insert, hv, Memory.lookup]
  | lo, (k, w) :: rest, hm => by
    simp only [Memory.wfFrom, Bool.and_eq_true, decide_eq_true_eq] at hm
    simp only [Memory.insert]
    split
    · rename_i hlt
      split
      · rename_i hv
        have hk : k ≠ a := by omega
        simp only [Memory.lookup, if_neg hk, hv]
        exact Memory.lookup_below (by omega) hm.2
      · simp [Memory.lookup]
    · split
      · rename_i hk
        subst hk
        split
        · rename_i hv
          rw [hv]
          exact Memory.lookup_below (Nat.lt_succ_self _) hm.2
        · simp [Memory.lookup]
      · rename_i hk
        simp only [Memory.lookup, if_neg (Ne.symm hk)]
        exact Memory.lookup_insert_same v hm.2

/-- A write keeps the canonical form. -/
theorem Memory.insert_wfFrom {a : Nat} (v : Word) (ha : a < memWords) :
    ∀ {lo : Nat} {m : Memory}, lo ≤ a → Memory.wfFrom lo m = true → Memory.wfFrom lo (m.insert a v) = true
  | lo, [], hlo, _ => by
    by_cases hv : v = unlistedWord <;> simp [Memory.insert, hv, Memory.wfFrom, hlo, ha]
  | lo, (k, w) :: rest, hlo, hm => by
    have hm' := hm
    simp only [Memory.wfFrom, Bool.and_eq_true, decide_eq_true_eq] at hm
    simp only [Memory.insert]
    split
    · rename_i hlt
      split
      · exact hm'
      · rename_i hv
        simp only [Memory.wfFrom, Bool.and_eq_true, decide_eq_true_eq]
        exact ⟨⟨⟨hlo, ha⟩, hv⟩, ⟨⟨by omega, hm.1.1.2⟩, hm.1.2⟩, hm.2⟩
    · split
      · rename_i hk
        subst hk
        split
        · exact Memory.wfFrom_mono (by omega) hm.2
        · rename_i hv
          simp only [Memory.wfFrom, Bool.and_eq_true, decide_eq_true_eq]
          exact ⟨⟨hm.1.1, hv⟩, hm.2⟩
      · simp only [Memory.wfFrom, Bool.and_eq_true, decide_eq_true_eq]
        exact ⟨hm.1, Memory.insert_wfFrom v ha (by omega) hm.2⟩

/-! ### The store -/

theorem Memory.read_write_other (m : Memory) (a c : Addr) (v : Word) (h : c ≠ a) : (m.write a v).read c = m.read c :=
  Memory.lookup_insert_other v (fun hc => h (BitVec.eq_of_toNat_eq hc)) m

theorem Memory.read_write_same (m : Memory) (a : Addr) (v : Word) (h : m.wf = true) : (m.write a v).read a = v :=
  Memory.lookup_insert_same v h

/-- Every memory operation keeps the canonical form: `write` is the only one. -/
theorem Memory.write_wf (m : Memory) (a : Addr) (v : Word) (h : m.wf = true) : (m.write a v).wf = true :=
  Memory.insert_wfFrom v a.isLt (Nat.zero_le _) h

theorem State.load_store_other (s : State) (a c : Addr) (v : Word) (h : c ≠ a) : (s.store a v).load c = s.load c :=
  Memory.read_write_other s.memory a c v h

theorem State.load_store_same (s : State) (a : Addr) (v : Word) (h : s.memory.wf = true) : (s.store a v).load a = v :=
  Memory.read_write_same s.memory a v h

/-- The reset state's memory is in canonical form. -/
theorem reset_memory_wf : State.reset.memory.wf = true := rfl

end Sys2Proof.Machine
end

