-- ==== Sys2Proof/Laws/SignMagnitude.lean ====
section
/-! SUPPORT. The word algebra: what sign, magnitude and the signed readings of a built word are. -/

namespace Sys2Proof.Machine

open Sys2Proof

/-- The bits of a built word: the magnitude's below bit 23, the sign at bit 23. -/
theorem getLsbD_signMag (s : Bool) (m : Magnitude) (i : Nat) :
    (signMag s m).getLsbD i = if i < 23 then m.getLsbD i else (BitVec.ofBool s).getLsbD (i - 23) :=
  BitVec.getLsbD_append (x := BitVec.ofBool s) (y := m)

@[simp] theorem sgn_signMag (s : Bool) (m : Magnitude) : sgn (signMag s m) = s := by
  rw [sgn, getLsbD_signMag]; simp

@[simp] theorem mag_signMag (s : Bool) (m : Magnitude) : mag (signMag s m) = m := by
  apply BitVec.eq_of_getLsbD_eq
  intro i hi
  rw [mag, BitVec.getLsbD_extractLsb', Nat.zero_add, getLsbD_signMag]
  simp [hi]

/-- A word is its sign and its magnitude. -/
@[simp] theorem signMag_sgn_mag (w : Word) : signMag (sgn w) (mag w) = w := by
  apply BitVec.eq_of_getLsbD_eq
  intro i hi
  rw [getLsbD_signMag]
  by_cases h : i < 23
  · rw [if_pos h, mag, BitVec.getLsbD_extractLsb', Nat.zero_add]
    simp [h]
  · obtain rfl : i = 23 := by omega
    simp [sgn]

/-- Two words with the same sign and magnitude are equal. -/
theorem word_ext {v w : Word} (hs : sgn v = sgn w) (hm : mag v = mag w) : v = w := by
  rw [← signMag_sgn_mag v, ← signMag_sgn_mag w, hs, hm]

theorem mag_lt (w : Word) : (mag w).toNat < 8388608 := (mag w).isLt

/-- A word built with a sign reads as that sign's value of its magnitude. -/
theorem toSigned_signMag (s : Bool) (m : Magnitude) :
    toSigned (signMag s m) = if s then -(m.toNat : Int) else (m.toNat : Int) := by
  simp [toSigned]

/-- `from_signed` undone by `to_signed`, within range (R12). -/
theorem toSigned_fromSigned (v : Int) (h : v.natAbs ≤ 8388607) : toSigned (fromSigned v) = v := by
  have hm : (BitVec.ofNat 23 v.natAbs).toNat = v.natAbs := by
    rw [BitVec.toNat_ofNat]; exact Nat.mod_eq_of_lt (by omega)
  rw [fromSigned, toSigned_signMag, hm]
  by_cases hv : v < 0 <;> simp only [hv, decide_true, decide_false, if_true, if_false, Bool.false_eq_true] <;> omega

theorem natAbs_toSigned (w : Word) : (toSigned w).natAbs = (mag w).toNat := by
  unfold toSigned; split <;> simp

theorem toSigned_eq_zero (w : Word) : toSigned w = 0 ↔ mag w = 0#23 := by
  rw [← Int.natAbs_eq_zero, natAbs_toSigned, ← BitVec.toNat_inj]; rfl

/-- `to_signed` undone by `from_signed`, but that −0 comes back as +0 (R14). -/
theorem fromSigned_toSigned (w : Word) : fromSigned (toSigned w) = smw (sgn w) (mag w) := by
  have hm : BitVec.ofNat 23 (mag w).toNat = mag w := by simp
  rw [fromSigned, natAbs_toSigned, hm, smw]
  congr 1
  by_cases hz : mag w = 0#23
  · simp [hz, (toSigned_eq_zero w).2 hz]
  · have hpos : 0 < (mag w).toNat := by
      rcases Nat.eq_zero_or_pos (mag w).toNat with h | h
      · exact absurd (BitVec.eq_of_toNat_eq (by simpa using h)) hz
      · exact h
    unfold toSigned
    cases hs : sgn w <;> simp [hz]
    all_goals omega

@[simp] theorem mag_smw (s : Bool) (m : Magnitude) : mag (smw s m) = m := mag_signMag _ _

@[simp] theorem sgn_smw (s : Bool) (m : Magnitude) : sgn (smw s m) = (s && decide (m ≠ 0#23)) := sgn_signMag _ _

/-- Everything that a sum does to the state (R450, R451). -/
theorem State.takeSum_eq (s : State) (v : Int) :
    s.takeSum v = { s with a := fromSigned v, overflow := s.overflow || decide (8388607 < v.natAbs) } := rfl

/-- The magnitudes of the two halves of a product make the exact product (R470). -/
theorem product_mag (b m : Word) :
    (mag (product b m).1).toNat * 8388608 + (mag (product b m).2).toNat = (mag b).toNat * (mag m).toNat := by
  have hb := mag_lt b
  have hm := mag_lt m
  have hp : (mag b).toNat * (mag m).toNat < 8388608 * 8388608 := Nat.mul_lt_mul'' hb hm
  simp only [product, mag_signMag, BitVec.toNat_ofNat]
  generalize (mag b).toNat * (mag m).toNat = p at hp ⊢
  omega

end Sys2Proof.Machine
end

