-- ==== Sys2Proof/Laws/Exec.lean ====
section
/-! SUPPORT. What `exec` and a step can do, said once: `exec` is the rule of the instruction, settled; a rule other than XEC's always
has an effect; an XEC runs the rule of the word at its effective address. -/

namespace Sys2Proof.Machine

open Sys2Proof

/-- The dispatch of `exec` and the dispatch inside XEC give every instruction the same rule. -/
theorem exec_eq_instrRule (i : Instr) (s : State) :
    exec i s = match instrRule i s with
      | some e => settle e
      | none => .fault .xecNeverEnds := by
  cases i <;> rfl

/-- `exec` answers a next state exactly if the instruction's rule has an effect, and then it is that effect, charged. -/
theorem exec_next_iff (i : Instr) (s t : State) : exec i s = .next t ↔ ∃ e : Effect, instrRule i s = some e ∧ e.commit = t := by
  rw [exec_eq_instrRule]
  cases h : instrRule i s <;> simp

/-- The one stop. -/
theorem exec_fault_iff (i : Instr) (s : State) : exec i s = .fault .xecNeverEnds ↔ instrRule i s = none := by
  rw [exec_eq_instrRule]
  cases h : instrRule i s <;> simp [settle]

/-- An instruction is an XEC or has the opcode of none. -/
theorem xec_or_not (i : Instr) : (∃ f, i = .xec f) ∨ i.opcode ≠ 0o02#6 := by
  cases i <;> first | exact .inl ⟨_, rfl⟩ | exact .inr (by simp only [Instr.opcode]; decide)

/-- The rule of an instruction that is no XEC does not look at XEC's. -/
theorem ruleOf_plain (x y : Fields → State → Option Effect) (i : Instr) (s : State) (h : i.opcode ≠ 0o02#6) :
    ruleOf x i s = ruleOf y i s := by
  cases i <;> first | rfl | exact absurd rfl h

/-- The rule of an instruction that is no XEC always has an effect. -/
theorem ruleOf_plain_some (x : Fields → State → Option Effect) (i : Instr) (s : State) (h : i.opcode ≠ 0o02#6) :
    ∃ e : Effect, ruleOf x i s = some e := by
  cases i <;> first | exact ⟨_, rfl⟩ | exact absurd rfl h

/-- What XEC does when no limit stops it. -/
theorem executeTarget_eq (x : Fields → State → Option Effect) (f : Fields) (s : State) :
    executeTarget x f s =
      (ruleOf x (decode (s.load (effectiveAddress f s))) (s.setPc (effectiveAddress f s + 1#15))).map
        fun e => e.addCost 5 := rfl

/-- XEC of an instruction that is no XEC. -/
theorem executeTarget_plain (x : Fields → State → Option Effect) (f : Fields) (s : State)
    (h : (decode (s.load (effectiveAddress f s))).opcode ≠ 0o02#6) :
    ∃ e : Effect,
      ruleOf x (decode (s.load (effectiveAddress f s))) (s.setPc (effectiveAddress f s + 1#15)) = some e ∧
      executeTarget x f s = some (e.addCost 5) := by
  obtain ⟨e, he⟩ := ruleOf_plain_some x _ (s.setPc (effectiveAddress f s + 1#15)) h
  exact ⟨e, he, by rw [executeTarget_eq, he]; rfl⟩

/-- XEC of an XEC. -/
theorem executeTarget_xec (x : Fields → State → Option Effect) (f g : Fields) (s : State)
    (h : decode (s.load (effectiveAddress f s)) = .xec g) :
    executeTarget x f s = (x g (s.setPc (effectiveAddress f s + 1#15))).map fun e => e.addCost 5 := by
  rw [executeTarget_eq, h]; rfl

/-- The rule of an XEC met at a depth within the limit. -/
theorem nestedXec_succ (limit : Option DepthLimit) (fuel depth : Nat) (f : Fields) (s : State)
    (h : exceedsLimit limit depth = false) :
    nestedXec limit (fuel + 1) depth f s = executeTarget (nestedXec limit fuel (depth + 1)) f s := by
  simp [nestedXec, h]

/-- The rule of an XEC met beyond the limit. -/
theorem nestedXec_limit (limit : Option DepthLimit) (fuel depth : Nat) (f : Fields) (s : State)
    (h : exceedsLimit limit depth = true) : nestedXec limit fuel depth f s = some (xecLimitRule s) := by
  cases fuel <;> simp [nestedXec, h]

/-- The XEC that a step fetches is the XEC at depth 0 of R570, since a limit is at least 1. -/
theorem xecRule_eq_nestedXec (limit : Option DepthLimit) (f : Fields) (s : State) :
    xecRule limit f s = nestedXec limit (xecFuel limit + 1) 0 f s := by
  have h : exceedsLimit limit 0 = false := by
    cases limit with
    | none => rfl
    | some l => have := l.positive; simp [exceedsLimit]; omega
  rw [nestedXec_succ _ _ _ _ _ h]; rfl

/-- What holds of every rule's effect, packaged once: if it holds of each instruction that is no XEC, of the depth-limit outcome, and
goes through XEC's write of `PC`, then it holds of every XEC, however its chain nests. -/
theorem nestedXec_induct (P : State → State → Prop)
    (plain : ∀ (x : Fields → State → Option Effect) (i : Instr) (s : State) (e : Effect),
      i.opcode ≠ 0o02#6 → ruleOf x i s = some e → P s e.state)
    (atLimit : ∀ s, P s (xecLimitRule s).state) (throughPc : ∀ s t v, P (s.setPc v) t → P s t)
    (limit : Option DepthLimit) :
    ∀ (fuel depth : Nat) (f : Fields) (s : State) (e : Effect), nestedXec limit fuel depth f s = some e → P s e.state := by
  have target : ∀ x : Fields → State → Option Effect, (∀ f s e, x f s = some e → P s e.state) →
      ∀ f s e, executeTarget x f s = some e → P s e.state := by
    intro x hx f s e h
    rw [executeTarget_eq, Option.map_eq_some_iff] at h
    obtain ⟨e', he', rfl⟩ := h
    apply throughPc s _ (effectiveAddress f s + 1#15)
    rcases xec_or_not (decode (s.load (effectiveAddress f s))) with ⟨g, hg⟩ | hg
    · rw [hg] at he'
      exact hx _ _ e' he'
    · exact plain x _ _ e' hg he'
  intro fuel
  induction fuel with
  | zero =>
    intro depth f s e h
    simp only [nestedXec] at h
    split at h
    · cases h
      exact atLimit s
    · cases h
  | succ n ih =>
    intro depth f s e h
    simp only [nestedXec] at h
    split at h
    · cases h
      exact atLimit s
    · exact target _ (fun f s e h => ih _ f s e h) _ _ _ h

/-- The same for the rule of any instruction. -/
theorem instrRule_induct (P : State → State → Prop)
    (plain : ∀ (x : Fields → State → Option Effect) (i : Instr) (s : State) (e : Effect),
      i.opcode ≠ 0o02#6 → ruleOf x i s = some e → P s e.state)
    (atLimit : ∀ s, P s (xecLimitRule s).state) (throughPc : ∀ s t v, P (s.setPc v) t → P s t)
    (i : Instr) (s : State) (e : Effect) (h : instrRule i s = some e) : P s e.state := by
  rcases xec_or_not i with ⟨g, rfl⟩ | hi
  · have h' : xecRule Config.xecDepthLimit g s = some e := h
    rw [xecRule_eq_nestedXec] at h'
    exact nestedXec_induct P plain atLimit throughPc _ _ _ _ _ _ h'
  · exact plain _ _ _ _ hi h

/-- A step, by cases: nothing while halted; otherwise the effect of the instruction at `PC`. -/
theorem step_next_iff (s t : State) :
    step s = .next t ↔
      (s.halted = true ∧ t = s) ∨
      (s.halted = false ∧ ∃ e : Effect, instrRule (decode (s.load s.pc)) s.advance = some e ∧ e.commit = t) := by
  unfold step
  cases h : s.halted
  · simp only [Bool.false_eq_true, if_false, false_and, true_and, false_or]
    exact exec_next_iff _ _ _
  · simp only [if_true, true_and, Bool.true_eq_false, false_and, or_false]
    simp [eq_comm]

/-- A run takes one step and goes on from there. -/
theorem run_succ_next (M : Host.Core) (n : Nat) (s t : M.State) (h : M.step s = .next t) : M.run (n + 1) s = M.run n t := by
  have e : M.run (n + 1) s =
      (match M.step s with
        | .next u => M.run n u
        | .fault r => .fault r
        | .refused r => .refused r) := rfl
  rw [e, h]

end Sys2Proof.Machine
end

