-- ==== Sys2Proof/Laws/Chain.lean ====
section
/-! SUPPORT. XEC chains: following a chain changes only `PC`, and the rule of an instruction is the rule of the word its chain reaches. -/

namespace Sys2Proof.Machine

open Sys2Proof

/-- Following a chain changes nothing but `PC`. -/
theorem XecChain.same_but_pc {limit : Option DepthLimit} {i j : Instr} {s u : State} {n : Nat} (h : XecChain limit i s n j u) :
    u = s.setPc u.pc := by
  induction h with
  | start => rfl
  | link n f u _ _ ih => rw [ih]; rfl

/-- A limit within which one more XEC is executed does not stop it. -/
theorem exceedsLimit_eq_false (limit : Option DepthLimit) (n : Nat) (h : ∀ l : DepthLimit, limit = some l → n + 1 ≤ l.levels) :
    exceedsLimit limit n = false := by
  cases limit with
  | none => rfl
  | some l => have := h l rfl; simp [exceedsLimit]; omega

/-- The first XEC of a chain is never stopped, since a limit is at least 1. -/
theorem XecChain.first (limit : Option DepthLimit) (f : Fields) (s : State) :
    XecChain limit (.xec f) s 1 (decode (s.load (effectiveAddress f s))) (s.setPc (effectiveAddress f s + 1#15)) :=
  .link 0 f s .start fun l _ => l.positive

/-- The rule of an instruction at depth 0 is that of the word its chain reaches after `n` XECs, at `5 * n` more cost. -/
theorem ruleOf_chain {limit : Option DepthLimit} {i j : Instr} {s u : State} {n : Nat} (h : XecChain limit i s n j u) :
    ∀ fuel : Nat, ruleOf (nestedXec limit (fuel + n) 0) i s =
      (ruleOf (nestedXec limit fuel n) j u).map fun e => e.addCost (5 * n) := by
  induction h with
  | start =>
    intro fuel
    cases ruleOf (nestedXec limit (fuel + 0) 0) i s <;> simp [Effect.addCost]
  | link n f u _ hl ih =>
    intro fuel
    rw [show fuel + (n + 1) = (fuel + 1) + n by omega, ih (fuel + 1)]
    have hx : ruleOf (nestedXec limit (fuel + 1) n) (.xec f) u = executeTarget (nestedXec limit fuel (n + 1)) f u :=
      nestedXec_succ _ _ _ _ _ (exceedsLimit_eq_false limit n hl)
    rw [hx, executeTarget_eq, Option.map_map]
    congr 1
    funext e
    simp only [Function.comp, Effect.addCost, Effect.mk.injEq, true_and]
    omega

/-- A rule that has an effect follows a chain that ends. -/
theorem chain_of_rule (limit : Option DepthLimit) (i : Instr) (s : State) :
    ∀ (fuel n : Nat) (j : Instr) (u : State) (e : Effect), XecChain limit i s n j u →
      ruleOf (nestedXec limit fuel n) j u = some e →
      ∃ (m : Nat) (k : Instr) (v : State), ChainEndsIn limit i s m k v := by
  intro fuel
  induction fuel with
  | zero =>
    intro n j u e hc he
    refine ⟨n, j, u, hc, fun hj => ?_⟩
    obtain ⟨f, rfl⟩ | hp := xec_or_not j
    · simp only [ruleOf, nestedXec] at he
      cases limit with
      | none => simp [exceedsLimit] at he
      | some l =>
        simp [exceedsLimit] at he
        exact ⟨l, rfl, by omega⟩
    · exact absurd hj hp
  | succ fuel ih =>
    intro n j u e hc he
    obtain ⟨f, rfl⟩ | hp := xec_or_not j
    · by_cases hl : ∀ l : DepthLimit, limit = some l → n + 1 ≤ l.levels
      · have hx : ruleOf (nestedXec limit (fuel + 1) n) (.xec f) u = executeTarget (nestedXec limit fuel (n + 1)) f u :=
          nestedXec_succ _ _ _ _ _ (exceedsLimit_eq_false limit n hl)
        rw [hx, executeTarget_eq, Option.map_eq_some_iff] at he
        obtain ⟨e', he', -⟩ := he
        exact ih _ _ _ e' (.link n f u hc hl) he'
      · push Not at hl
        obtain ⟨l, h1, h2⟩ := hl
        exact ⟨n, _, u, hc, fun _ => ⟨l, h1, h2⟩⟩
    · exact ⟨n, j, u, hc, fun hj => absurd hj hp⟩

/-- An instruction's rule is its rule at depth 0 of a chain. -/
theorem ruleOf_xecRule (limit : Option DepthLimit) (i : Instr) (s : State) :
    ruleOf (xecRule limit) i s = ruleOf (nestedXec limit (xecFuel limit + 1) 0) i s := by
  cases i <;> first | rfl | exact xecRule_eq_nestedXec _ _ _

/-- More fuel changes no effect that less fuel finds. -/
theorem nestedXec_more_fuel (limit : Option DepthLimit) (more : Nat) :
    ∀ (fuel depth : Nat) (f : Fields) (s : State) (e : Effect),
      nestedXec limit fuel depth f s = some e → nestedXec limit (fuel + more) depth f s = some e := by
  intro fuel
  induction fuel with
  | zero =>
    intro depth f s e h
    cases hx : exceedsLimit limit depth with
    | true => rw [nestedXec_limit _ _ _ _ _ hx] at h ⊢; exact h
    | false => simp [nestedXec, hx] at h
  | succ fuel ih =>
    intro depth f s e h
    cases hx : exceedsLimit limit depth with
    | true => rw [nestedXec_limit _ _ _ _ _ hx] at h ⊢; exact h
    | false =>
      rw [show fuel + 1 + more = (fuel + more) + 1 by omega]
      rw [nestedXec_succ _ _ _ _ _ hx, executeTarget_eq, Option.map_eq_some_iff] at h ⊢
      obtain ⟨e', he, h⟩ := h
      refine ⟨e', ?_, h⟩
      obtain ⟨g, hg⟩ | hg := xec_or_not (decode (s.load (effectiveAddress f s)))
      · rw [hg] at he ⊢
        exact ih _ _ _ _ he
      · rw [← he]
        exact ruleOf_plain _ _ _ _ hg

/-- The same for the rule of any instruction. -/
theorem ruleOf_more_fuel (limit : Option DepthLimit) (more fuel depth : Nat) (i : Instr) (s : State) (e : Effect)
    (h : ruleOf (nestedXec limit fuel depth) i s = some e) : ruleOf (nestedXec limit (fuel + more) depth) i s = some e := by
  obtain ⟨g, rfl⟩ | hi := xec_or_not i
  · exact nestedXec_more_fuel _ _ _ _ _ _ _ h
  · rw [← h]
    exact ruleOf_plain _ _ _ _ hi

/-- The effect of an instruction's rule is found with any fuel that is enough. -/
theorem ruleOf_eq_of_fuel {limit : Option DepthLimit} {i : Instr} {s : State} {e e' : Effect} (n : Nat)
    (h : ruleOf (xecRule limit) i s = some e)
    (h' : ∀ fuel : Nat, ruleOf (nestedXec limit (fuel + n) 0) i s = some e') : e = e' := by
  rw [ruleOf_xecRule] at h
  have h1 := ruleOf_more_fuel limit n _ _ _ _ _ h
  rw [h'] at h1
  exact (Option.some.inj h1).symm

/-- The effect of a chain that ends in `j`: that of `j`, or the depth-limit outcome, at `5 * n` more cost, whatever the fuel. -/
theorem ruleOf_chain_end {limit : Option DepthLimit} {i j : Instr} {s u : State} {n : Nat} (h : ChainEndsIn limit i s n j u) :
    ∃ e : Effect, (j.opcode ≠ 0o02#6 ∧ instrRule j u = some e ∨ j.opcode = 0o02#6 ∧ e = xecLimitRule u) ∧
      ∀ fuel : Nat, ruleOf (nestedXec limit (fuel + n) 0) i s = some (e.addCost (5 * n)) := by
  obtain ⟨hc, hl⟩ := h
  obtain ⟨f, rfl⟩ | hj := xec_or_not j
  · obtain ⟨l, rfl, hn⟩ := hl rfl
    refine ⟨xecLimitRule u, .inr ⟨rfl, rfl⟩, fun fuel => ?_⟩
    rw [ruleOf_chain hc]
    have hx : ruleOf (nestedXec (some l) fuel n) (.xec f) u = some (xecLimitRule u) :=
      nestedXec_limit _ _ _ _ _ (by simp [exceedsLimit]; omega)
    rw [hx]
    rfl
  · obtain ⟨e, he⟩ := ruleOf_plain_some (xecRule Config.xecDepthLimit) j u hj
    refine ⟨e, .inl ⟨hj, he⟩, fun fuel => ?_⟩
    rw [ruleOf_chain hc, ruleOf_plain _ (xecRule Config.xecDepthLimit) _ _ hj, he]
    rfl

/-- What `exec` answers for an instruction whose chain ends in `j`: the effect of `j`, or the depth-limit outcome, charged with 5 more for
each executed XEC. -/
theorem exec_chain_end {i j : Instr} {s t u : State} {n : Nat} (h : exec i s = .next t)
    (hc : ChainEndsIn Config.xecDepthLimit i s n j u) :
    ∃ e : Effect, (j.opcode ≠ 0o02#6 ∧ instrRule j u = some e ∨ j.opcode = 0o02#6 ∧ e = xecLimitRule u) ∧
      t = (e.addCost (5 * n)).commit := by
  obtain ⟨e, hj, he⟩ := ruleOf_chain_end hc
  refine ⟨e, hj, ?_⟩
  obtain ⟨e', h', rfl⟩ := (exec_next_iff _ _ _).1 h
  rw [ruleOf_eq_of_fuel n h' he]

end Sys2Proof.Machine
end

