-- ==== Sys2Proof/Laws/Encoding.lean ====
section
/-! SUPPORT. The encoder and the decoder, field by field. -/

namespace Sys2Proof.Laws

open Sys2Proof

/-- Every instruction is well formed (30_encoding.md R322: every value of I, X and addr is legal). -/
theorem wellFormed_all (i : Instr) : i.wellFormed = true := by
  have ha : ¬ 32768 ≤ i.fields.addr.toNat := by have := i.fields.addr.isLt; omega
  have hi : ¬ 2 ≤ i.fields.indirect.toNat := by cases i.fields.indirect <;> simp
  have hx : ¬ 4 ≤ i.fields.index.number := by cases i.fields.index <;> simp [IndexReg.number]
  simp [Instr.wellFormed, RawInstr.wellFormed, RawInstr.check, Fields.toRaw, ha, hi, hx]

/-- The bits of an encoded word: the fields' below bit 18, the opcode's from bit 18 on. -/
theorem getLsbD_encode (i : Instr) (k : Nat) :
    (encode i).getLsbD k = if k < 18 then (encodeFields i.fields).getLsbD k else i.opcode.getLsbD (k - 18) :=
  BitVec.getLsbD_append (x := i.opcode) (y := encodeFields i.fields)

/-- The bits of the encoded fields: the address below bit 15, the selector at bits 15 and 16, the indirect flag at bit 17. -/
theorem getLsbD_encodeFields (f : Fields) (k : Nat) :
    (encodeFields f).getLsbD k =
      if k < 15 then f.addr.getLsbD k
      else if k < 17 then f.index.bits.getLsbD (k - 15)
      else (BitVec.ofBool f.indirect).getLsbD (k - 17) := by
  have outer : (encodeFields f).getLsbD k =
      if k < 17 then (f.index.bits ++ f.addr).getLsbD k else (BitVec.ofBool f.indirect).getLsbD (k - 17) :=
    BitVec.getLsbD_append (x := BitVec.ofBool f.indirect) (y := f.index.bits ++ f.addr)
  have inner : (f.index.bits ++ f.addr).getLsbD k =
      if k < 15 then f.addr.getLsbD k else f.index.bits.getLsbD (k - 15) :=
    BitVec.getLsbD_append (x := f.index.bits) (y := f.addr)
  rw [outer, inner]
  by_cases h : k < 15
  · simp [h, show k < 17 by omega]
  · by_cases h' : k < 17 <;> simp [h, h']

/-- The two parts of an encoded word. -/
theorem encode_parts (i : Instr) :
    (encode i).extractLsb' 18 6 = i.opcode ∧ (encode i).extractLsb' 0 18 = encodeFields i.fields := by
  constructor
  · apply BitVec.eq_of_getLsbD_eq
    intro k hk
    rw [BitVec.getLsbD_extractLsb', getLsbD_encode, if_neg (by omega), Nat.add_sub_cancel_left]
    simp [hk]
  · apply BitVec.eq_of_getLsbD_eq
    intro k hk
    rw [BitVec.getLsbD_extractLsb', getLsbD_encode, Nat.zero_add, if_pos hk]
    simp [hk]

/-- The selector bits name the register they were made from. -/
theorem indexOfBits_bits (r : IndexReg) : indexOfBits (r.bits.getLsbD 1) (r.bits.getLsbD 0) = r := by
  cases r <;> rfl

/-- Decoding an opcode and fields gives an instruction that carries those fields. -/
theorem fields_instrOfOpcode (high low : OctalDigit) (f : Fields) : (instrOfOpcode high low f).fields = f := by
  cases high <;> cases low <;> rfl

end Sys2Proof.Laws
end

