-- ==== Sys2Proof/Laws/PerInstr.lean ====
section
/-! SUPPORT. Facts about every instruction as syntax, one lemma per constructor: the six opcode bits of its word are the opcode that
the table gives it, and the other eighteen are its fields. -/

namespace Sys2Proof.Laws

open Sys2Proof

/-- The word of an instruction holds its opcode in bits 23..18 and its fields in bits 17..0 (30_encoding.md R300). -/
def OpcodeField.Statement (i : Instr) : Prop :=
  (encode i).extractLsb' 18 6 = i.opcode ∧ (encode i).extractLsb' 0 18 = encodeFields i.fields

theorem OpcodeField.hlt (f : Fields) : OpcodeField.Statement (.hlt f) := encode_parts _
theorem OpcodeField.xec (f : Fields) : OpcodeField.Statement (.xec f) := encode_parts _
theorem OpcodeField.stb (f : Fields) : OpcodeField.Statement (.stb f) := encode_parts _
theorem OpcodeField.sta (f : Fields) : OpcodeField.Statement (.sta f) := encode_parts _
theorem OpcodeField.add (f : Fields) : OpcodeField.Statement (.add f) := encode_parts _
theorem OpcodeField.sub (f : Fields) : OpcodeField.Statement (.sub f) := encode_parts _
theorem OpcodeField.skg (f : Fields) : OpcodeField.Statement (.skg f) := encode_parts _
theorem OpcodeField.skn (f : Fields) : OpcodeField.Statement (.skn f) := encode_parts _
theorem OpcodeField.ana (f : Fields) : OpcodeField.Statement (.ana f) := encode_parts _
theorem OpcodeField.ora (f : Fields) : OpcodeField.Statement (.ora f) := encode_parts _
theorem OpcodeField.era (f : Fields) : OpcodeField.Statement (.era f) := encode_parts _
theorem OpcodeField.ldb (f : Fields) : OpcodeField.Statement (.ldb f) := encode_parts _
theorem OpcodeField.lda (f : Fields) : OpcodeField.Statement (.lda f) := encode_parts _
theorem OpcodeField.jsl (f : Fields) : OpcodeField.Statement (.jsl f) := encode_parts _
theorem OpcodeField.mpy (f : Fields) : OpcodeField.Statement (.mpy f) := encode_parts _
theorem OpcodeField.div (f : Fields) : OpcodeField.Statement (.div f) := encode_parts _
theorem OpcodeField.ars (f : Fields) : OpcodeField.Statement (.ars f) := encode_parts _
theorem OpcodeField.als (f : Fields) : OpcodeField.Statement (.als f) := encode_parts _
theorem OpcodeField.tab (f : Fields) : OpcodeField.Statement (.tab f) := encode_parts _
theorem OpcodeField.ldx (f : Fields) : OpcodeField.Statement (.ldx f) := encode_parts _
theorem OpcodeField.iab (f : Fields) : OpcodeField.Statement (.iab f) := encode_parts _
theorem OpcodeField.six (f : Fields) : OpcodeField.Statement (.six f) := encode_parts _
theorem OpcodeField.jpl (f : Fields) : OpcodeField.Statement (.jpl f) := encode_parts _
theorem OpcodeField.jze (f : Fields) : OpcodeField.Statement (.jze f) := encode_parts _
theorem OpcodeField.jmi (f : Fields) : OpcodeField.Statement (.jmi f) := encode_parts _
theorem OpcodeField.jnz (f : Fields) : OpcodeField.Statement (.jnz f) := encode_parts _
theorem OpcodeField.jmp (f : Fields) : OpcodeField.Statement (.jmp f) := encode_parts _
theorem OpcodeField.nop (f : Fields) : OpcodeField.Statement (.nop f) := encode_parts _
theorem OpcodeField.unimpl01 (f : Fields) : OpcodeField.Statement (.unimpl01 f) := encode_parts _
theorem OpcodeField.unimpl04 (f : Fields) : OpcodeField.Statement (.unimpl04 f) := encode_parts _
theorem OpcodeField.unimpl06 (f : Fields) : OpcodeField.Statement (.unimpl06 f) := encode_parts _
theorem OpcodeField.unimpl07 (f : Fields) : OpcodeField.Statement (.unimpl07 f) := encode_parts _
theorem OpcodeField.unimpl14 (f : Fields) : OpcodeField.Statement (.unimpl14 f) := encode_parts _
theorem OpcodeField.unimpl20 (f : Fields) : OpcodeField.Statement (.unimpl20 f) := encode_parts _
theorem OpcodeField.unimpl21 (f : Fields) : OpcodeField.Statement (.unimpl21 f) := encode_parts _
theorem OpcodeField.unimpl22 (f : Fields) : OpcodeField.Statement (.unimpl22 f) := encode_parts _
theorem OpcodeField.unimpl25 (f : Fields) : OpcodeField.Statement (.unimpl25 f) := encode_parts _
theorem OpcodeField.unimpl26 (f : Fields) : OpcodeField.Statement (.unimpl26 f) := encode_parts _
theorem OpcodeField.unimpl30 (f : Fields) : OpcodeField.Statement (.unimpl30 f) := encode_parts _
theorem OpcodeField.unimpl31 (f : Fields) : OpcodeField.Statement (.unimpl31 f) := encode_parts _
theorem OpcodeField.unimpl32 (f : Fields) : OpcodeField.Statement (.unimpl32 f) := encode_parts _
theorem OpcodeField.unimpl33 (f : Fields) : OpcodeField.Statement (.unimpl33 f) := encode_parts _
theorem OpcodeField.unimpl36 (f : Fields) : OpcodeField.Statement (.unimpl36 f) := encode_parts _
theorem OpcodeField.unimpl37 (f : Fields) : OpcodeField.Statement (.unimpl37 f) := encode_parts _
theorem OpcodeField.unimpl42 (f : Fields) : OpcodeField.Statement (.unimpl42 f) := encode_parts _
theorem OpcodeField.unimpl43 (f : Fields) : OpcodeField.Statement (.unimpl43 f) := encode_parts _
theorem OpcodeField.unimpl44 (f : Fields) : OpcodeField.Statement (.unimpl44 f) := encode_parts _
theorem OpcodeField.unimpl45 (f : Fields) : OpcodeField.Statement (.unimpl45 f) := encode_parts _
theorem OpcodeField.unimpl46 (f : Fields) : OpcodeField.Statement (.unimpl46 f) := encode_parts _
theorem OpcodeField.unimpl47 (f : Fields) : OpcodeField.Statement (.unimpl47 f) := encode_parts _
theorem OpcodeField.unimpl50 (f : Fields) : OpcodeField.Statement (.unimpl50 f) := encode_parts _
theorem OpcodeField.unimpl51 (f : Fields) : OpcodeField.Statement (.unimpl51 f) := encode_parts _
theorem OpcodeField.unimpl52 (f : Fields) : OpcodeField.Statement (.unimpl52 f) := encode_parts _
theorem OpcodeField.unimpl53 (f : Fields) : OpcodeField.Statement (.unimpl53 f) := encode_parts _
theorem OpcodeField.unimpl54 (f : Fields) : OpcodeField.Statement (.unimpl54 f) := encode_parts _
theorem OpcodeField.unimpl60 (f : Fields) : OpcodeField.Statement (.unimpl60 f) := encode_parts _
theorem OpcodeField.unimpl61 (f : Fields) : OpcodeField.Statement (.unimpl61 f) := encode_parts _
theorem OpcodeField.unimpl62 (f : Fields) : OpcodeField.Statement (.unimpl62 f) := encode_parts _
theorem OpcodeField.unimpl63 (f : Fields) : OpcodeField.Statement (.unimpl63 f) := encode_parts _
theorem OpcodeField.unimpl64 (f : Fields) : OpcodeField.Statement (.unimpl64 f) := encode_parts _
theorem OpcodeField.unimpl65 (f : Fields) : OpcodeField.Statement (.unimpl65 f) := encode_parts _
theorem OpcodeField.unimpl67 (f : Fields) : OpcodeField.Statement (.unimpl67 f) := encode_parts _
theorem OpcodeField.unimpl75 (f : Fields) : OpcodeField.Statement (.unimpl75 f) := encode_parts _
theorem OpcodeField.unimpl76 (f : Fields) : OpcodeField.Statement (.unimpl76 f) := encode_parts _

end Sys2Proof.Laws
end

