-- ==== Sys2Proof/Tests/Slice0.lean ====
section
/-! SUPPORT. Tests. Expected values are those of spec/95_test_vectors.md (section numbers in the comments) or are read off the
tables of spec/30_encoding.md; words are written in the spec's octal form, opcode digits first. `test_meets_X` shows concrete values
that meet all hypotheses of the statement `Obligations.X`, clause by clause where it has several. -/

namespace Sys2Proof.Tests

open Sys2Proof Sys2Proof.Machine

/-! ### Helpers -/

/-- The reset state with the word `w` at `pc`, `PC` there, and the operand `m` at 0o200. -/
def placed (pc : Addr) (w m : Word) : State :=
  ((State.reset.setPc pc).store pc w).store 0o200#15 m

/-- `placed` at 0o1000 with the accumulators given: the layout of 95_test_vectors.md section 2. -/
def loaded (w m a b : Word) : State :=
  ((placed 0o1000#15 w m).setA a).setB b

/-- The state after one step. -/
def afterStep (s : State) : State :=
  match step s with
  | .next t => t
  | .fault _ => s
  | .refused _ => s

/-- `A`, `B` and `overflow`, which the arithmetic vectors list. -/
def sums (t : State) : Word × Word × Bool :=
  (t.a, t.b, t.overflow)

/-- `PC` and `cycles`. -/
def pcAndCycles (t : State) : Addr × CycleCount :=
  (t.pc, t.cycles)

/-- Fields with neither indirection nor indexing. -/
def direct (a : Addr) : Fields :=
  ⟨false, .x0, a⟩

/-! ### Well-formedness: each check refuses an ill-formed term -/

theorem test_raw_opcode_64_is_refused : (RawInstr.mk 64 0 0 0).toInstr = .error .opcodeTooWide := by decide

theorem test_raw_indirect_2_is_refused : (RawInstr.mk 0 2 0 0).toInstr = .error .indirectNotABit := by decide

theorem test_raw_index_4_is_refused : (RawInstr.mk 0 0 4 0).toInstr = .error .noSuchIndexRegister := by decide

theorem test_raw_address_32768_is_refused : (RawInstr.mk 0 0 0 32768).toInstr = .error .addressTooWide := by decide

theorem test_raw_largest_numbers_are_accepted :
    (RawInstr.mk 63 1 3 32767).toInstr = .ok (.nop ⟨true, .x3, 0o77777#15⟩) ∧ (RawInstr.mk 63 1 3 32767).wellFormed = true := by decide

/-! ### Decoding words written out from R300, R320 and R321: all 64 opcodes -/

theorem test_decode_opcodes_00_to_07 :
  decode 0o00_500001#24 = .hlt ⟨true, .x1, 0o1#15⟩ ∧
    decode 0o01_077777#24 = .unimpl01 ⟨false, .x0, 0o77777#15⟩ ∧
    decode 0o02_452525#24 = .xec ⟨true, .x0, 0o52525#15⟩ ∧
    decode 0o03_000001#24 = .stb ⟨false, .x0, 0o1#15⟩ ∧
    decode 0o04_452525#24 = .unimpl04 ⟨true, .x0, 0o52525#15⟩ ∧
    decode 0o05_300000#24 = .sta ⟨false, .x3, 0o0#15⟩ ∧
    decode 0o06_100000#24 = .unimpl06 ⟨false, .x1, 0o0#15⟩ ∧
    decode 0o07_452525#24 = .unimpl07 ⟨true, .x0, 0o52525#15⟩ := by decide

theorem test_decode_opcodes_10_to_17 :
  decode 0o10_125252#24 = .add ⟨false, .x1, 0o25252#15⟩ ∧
    decode 0o11_577777#24 = .sub ⟨true, .x1, 0o77777#15⟩ ∧
    decode 0o12_577777#24 = .skg ⟨true, .x1, 0o77777#15⟩ ∧
    decode 0o13_277777#24 = .skn ⟨false, .x2, 0o77777#15⟩ ∧
    decode 0o14_052525#24 = .unimpl14 ⟨false, .x0, 0o52525#15⟩ ∧
    decode 0o15_712345#24 = .ana ⟨true, .x3, 0o12345#15⟩ ∧
    decode 0o16_712345#24 = .ora ⟨true, .x3, 0o12345#15⟩ ∧
    decode 0o17_500400#24 = .era ⟨true, .x1, 0o400#15⟩ := by decide

theorem test_decode_opcodes_20_to_27 :
  decode 0o20_025252#24 = .unimpl20 ⟨false, .x0, 0o25252#15⟩ ∧
    decode 0o21_640000#24 = .unimpl21 ⟨true, .x2, 0o40000#15⟩ ∧
    decode 0o22_477777#24 = .unimpl22 ⟨true, .x0, 0o77777#15⟩ ∧
    decode 0o23_512345#24 = .ldb ⟨true, .x1, 0o12345#15⟩ ∧
    decode 0o24_300001#24 = .lda ⟨false, .x3, 0o1#15⟩ ∧
    decode 0o25_012345#24 = .unimpl25 ⟨false, .x0, 0o12345#15⟩ ∧
    decode 0o26_640000#24 = .unimpl26 ⟨true, .x2, 0o40000#15⟩ ∧
    decode 0o27_477777#24 = .jsl ⟨true, .x0, 0o77777#15⟩ := by decide

theorem test_decode_opcodes_30_to_37 :
  decode 0o30_777777#24 = .unimpl30 ⟨true, .x3, 0o77777#15⟩ ∧
    decode 0o31_240000#24 = .unimpl31 ⟨false, .x2, 0o40000#15⟩ ∧
    decode 0o32_712345#24 = .unimpl32 ⟨true, .x3, 0o12345#15⟩ ∧
    decode 0o33_312345#24 = .unimpl33 ⟨false, .x3, 0o12345#15⟩ ∧
    decode 0o34_040000#24 = .mpy ⟨false, .x0, 0o40000#15⟩ ∧
    decode 0o35_125252#24 = .div ⟨false, .x1, 0o25252#15⟩ ∧
    decode 0o36_100001#24 = .unimpl36 ⟨false, .x1, 0o1#15⟩ ∧
    decode 0o37_777777#24 = .unimpl37 ⟨true, .x3, 0o77777#15⟩ := by decide

theorem test_decode_opcodes_40_to_47 :
  decode 0o40_300001#24 = .ars ⟨false, .x3, 0o1#15⟩ ∧
    decode 0o41_500001#24 = .als ⟨true, .x1, 0o1#15⟩ ∧
    decode 0o42_712345#24 = .unimpl42 ⟨true, .x3, 0o12345#15⟩ ∧
    decode 0o43_500400#24 = .unimpl43 ⟨true, .x1, 0o400#15⟩ ∧
    decode 0o44_100400#24 = .unimpl44 ⟨false, .x1, 0o400#15⟩ ∧
    decode 0o45_100000#24 = .unimpl45 ⟨false, .x1, 0o0#15⟩ ∧
    decode 0o46_525252#24 = .unimpl46 ⟨true, .x1, 0o25252#15⟩ ∧
    decode 0o47_400400#24 = .unimpl47 ⟨true, .x0, 0o400#15⟩ := by decide

theorem test_decode_opcodes_50_to_57 :
  decode 0o50_612345#24 = .unimpl50 ⟨true, .x2, 0o12345#15⟩ ∧
    decode 0o51_040000#24 = .unimpl51 ⟨false, .x0, 0o40000#15⟩ ∧
    decode 0o52_700001#24 = .unimpl52 ⟨true, .x3, 0o1#15⟩ ∧
    decode 0o53_440000#24 = .unimpl53 ⟨true, .x0, 0o40000#15⟩ ∧
    decode 0o54_452525#24 = .unimpl54 ⟨true, .x0, 0o52525#15⟩ ∧
    decode 0o55_140000#24 = .tab ⟨false, .x1, 0o40000#15⟩ ∧
    decode 0o56_012345#24 = .ldx ⟨false, .x0, 0o12345#15⟩ ∧
    decode 0o57_000000#24 = .iab ⟨false, .x0, 0o0#15⟩ := by decide

theorem test_decode_opcodes_60_to_67 :
  decode 0o60_012345#24 = .unimpl60 ⟨false, .x0, 0o12345#15⟩ ∧
    decode 0o61_052525#24 = .unimpl61 ⟨false, .x0, 0o52525#15⟩ ∧
    decode 0o62_525252#24 = .unimpl62 ⟨true, .x1, 0o25252#15⟩ ∧
    decode 0o63_640000#24 = .unimpl63 ⟨true, .x2, 0o40000#15⟩ ∧
    decode 0o64_040000#24 = .unimpl64 ⟨false, .x0, 0o40000#15⟩ ∧
    decode 0o65_740000#24 = .unimpl65 ⟨true, .x3, 0o40000#15⟩ ∧
    decode 0o66_400400#24 = .six ⟨true, .x0, 0o400#15⟩ ∧
    decode 0o67_225252#24 = .unimpl67 ⟨false, .x2, 0o25252#15⟩ := by decide

theorem test_decode_opcodes_70_to_77 :
  decode 0o70_500000#24 = .jpl ⟨true, .x1, 0o0#15⟩ ∧
    decode 0o71_200400#24 = .jze ⟨false, .x2, 0o400#15⟩ ∧
    decode 0o72_277777#24 = .jmi ⟨false, .x2, 0o77777#15⟩ ∧
    decode 0o73_600400#24 = .jnz ⟨true, .x2, 0o400#15⟩ ∧
    decode 0o74_512345#24 = .jmp ⟨true, .x1, 0o12345#15⟩ ∧
    decode 0o75_152525#24 = .unimpl75 ⟨false, .x1, 0o52525#15⟩ ∧
    decode 0o76_552525#24 = .unimpl76 ⟨true, .x1, 0o52525#15⟩ ∧
    decode 0o77_600000#24 = .nop ⟨true, .x2, 0o0#15⟩ := by decide

theorem test_decode_lda_word_bit_by_bit :
    decode 0b010100_0_00_000000100000000#24 = .lda (direct 0o400#15) ∧
    decode 0b101110_1_11_111111111111110#24 = .ldx ⟨true, .x3, 0o77776#15⟩ := by decide

theorem test_encode_lda_word : encode (.lda (direct 0o400#15)) = 0x500100#24 := by decide

theorem test_decode_bytes_reads_one_word_big_endian :
    decodeBytes [0x50#8, 0x01#8, 0x00#8, 0xff#8] = .ok (.lda (direct 0o400#15), [0xff#8]) := by rfl

theorem test_decode_bytes_refuses_an_empty_run : decodeBytes [] = .error .noBytes := by rfl

theorem test_decode_bytes_refuses_two_bytes : decodeBytes [0x50#8, 0x01#8] = .error .incompleteWord := by rfl

theorem test_decode_table_word_of_ldx :
    decodeTableWord 24 0o56_100200 = some (.ldx ⟨false, .x1, 0o200#15⟩) ∧ decodeTableWord 25 0 = none := by decide

theorem test_step_runs_the_fetch_word :
    pcAndCycles (afterStep (State.reset.withFetchWord 24 0o74_000300)) = (0o300#15, 5#64) := by decide

/-! ### Effective address (section 2.1) -/

theorem test_index_wraps :
    (afterStep (((placed 0o1000#15 0o24_277776#24 0#24).writeX .x2 3#15).store 0o1#15 0o555#24)).a = 0o555#24 := by decide

theorem test_index_then_indirect :
    (afterStep (((((placed 0o1000#15 0o24_500400#24 0#24).writeX .x1 2#15).store 0o402#15 0o600#24).store 0o600#15 0o4444#24).store
      0o400#15 0o700#24)).a = 0o4444#24 := by decide

/-! ### HLT, NOP and the decode error (section 2.2) -/

theorem test_hlt_at_the_top_rewinds :
    (let t := afterStep (placed 0o77777#15 0#24 0#24); (t.pc, t.halted, t.cycles)) = (0o77777#15, true, 5#64) := by decide

theorem test_hlt_from_reset :
    (let t := afterStep State.reset; (t.pc, t.halted, t.cycles)) = (0#15, true, 5#64) := by decide

theorem test_halted_step_does_nothing :
    afterStep ((placed 0o1000#15 0o24_000200#24 7#24).setHalted true) = (placed 0o1000#15 0o24_000200#24 7#24).setHalted true := by decide

theorem test_nop_at_the_top_wraps :
    pcAndCycles (afterStep (placed 0o77777#15 0o77_000000#24 0#24)) = (0#15, 5#64) := by decide

theorem test_unimplemented_01 :
    (let t := afterStep (placed 0o1000#15 0o01_000000#24 0#24); (t.pc, t.halted, t.diagLog)) = (0o1001#15, true, [⟨0o01#6, 0o1000#15⟩]) := by decide

theorem test_unimplemented_76 :
    (let t := afterStep (loaded 0o76_777777#24 0#24 5#24 0#24); (t.a, t.pc, t.diagLog)) = (5#24, 0o1001#15, [⟨0o76#6, 0o1000#15⟩]) := by decide

/-! ### Loads and stores (section 2.4) -/

theorem test_ldb_keeps_minus_zero :
    (afterStep (loaded 0o23_000200#24 0o40_000000#24 0#24 0#24)).b = 0o40_000000#24 := by decide

theorem test_sta_overwrites_its_own_word :
    (let t := afterStep (loaded 0o05_001000#24 0#24 0o77_000000#24 0#24); (t.load 0o1000#15, t.pc)) = (0o77_000000#24, 0o1001#15) := by decide

theorem test_stb_stores_b :
    (afterStep (loaded 0o03_000200#24 0#24 0#24 0o40_000003#24)).load 0o200#15 = 0o40_000003#24 := by decide

/-! ### Add, subtract, logical operations (section 2.5) -/

theorem test_add_minus_zeros :
    sums (afterStep (loaded 0o10_000200#24 0o40_000000#24 0o40_000000#24 0#24)) = (0#24, 0#24, false) := by decide

theorem test_add_negative_overflow :
    sums (afterStep (loaded 0o10_000200#24 0o40_000001#24 0o77_777777#24 0#24)) = (0o40_000000#24, 0#24, true) := by decide

theorem test_sub_changes_sign :
    sums (afterStep (loaded 0o11_000200#24 5#24 3#24 0#24)) = (0o40_000002#24, 0#24, false) := by decide

theorem test_sub_overflow :
    sums (afterStep (loaded 0o11_000200#24 0o37_777777#24 0o40_000001#24 0#24)) = (0o40_000000#24, 0#24, true) := by decide

theorem test_ana_acts_on_the_sign_bit :
    sums (afterStep (loaded 0o15_000200#24 0o40_000003#24 0o40_000005#24 0#24)) = (0o40_000001#24, 0#24, false) := by decide

theorem test_ora_acts_on_the_sign_bit :
    sums (afterStep (loaded 0o16_000200#24 0#24 0o40_000000#24 0#24)) = (0o40_000000#24, 0#24, false) := by decide

theorem test_era_acts_on_the_sign_bit :
    sums (afterStep (loaded 0o17_000200#24 0o40_000003#24 0o40_000005#24 0#24)) = (0o00_000006#24, 0#24, false) := by decide

/-! ### Multiply and divide (section 2.6) -/

theorem test_mpy_sign_on_a_zero_high_half :
    sums (afterStep (loaded 0o34_000200#24 1#24 0#24 0o77_777777#24)) = (0o40_000000#24, 0o77_777777#24, false) := by decide

theorem test_mpy_largest :
    sums (afterStep (loaded 0o34_000200#24 0o37_777777#24 0#24 0o37_777777#24)) = (0o37_777776#24, 0o00_000001#24, false) := by decide

theorem test_div_signs_of_quotient_and_remainder :
    sums (afterStep (loaded 0o35_000200#24 0o40_000004#24 0o40_000003#24 0o17#24)) = (0o40_000003#24, 0o30_000003#24, false) := by decide

theorem test_div_equal_magnitudes_is_improper :
    sums (afterStep (loaded 0o35_000200#24 5#24 5#24 0#24)) = (5#24, 0#24, true) := by decide

/-! ### Jumps and skips (section 2.7) -/

theorem test_jmp :
    pcAndCycles (afterStep (loaded 0o74_000300#24 0#24 0#24 0#24)) = (0o300#15, 5#64) := by decide

theorem test_jpl_not_on_zero :
    pcAndCycles (afterStep (loaded 0o70_000300#24 0#24 0#24 0#24)) = (0o1001#15, 6#64) := by decide

theorem test_jpl_on_five :
    pcAndCycles (afterStep (loaded 0o70_000300#24 0#24 5#24 0#24)) = (0o300#15, 6#64) := by decide

theorem test_jmi_on_minus_zero :
    pcAndCycles (afterStep (loaded 0o72_000300#24 0#24 0o40_000000#24 0#24)) = (0o300#15, 6#64) := by decide

theorem test_jmi_not_on_five :
    pcAndCycles (afterStep (loaded 0o72_000300#24 0#24 5#24 0#24)) = (0o1001#15, 6#64) := by decide

theorem test_jze_on_minus_zero :
    pcAndCycles (afterStep (loaded 0o71_000300#24 0#24 0o40_000000#24 0#24)) = (0o300#15, 6#64) := by decide

theorem test_jze_not_on_minus_five :
    pcAndCycles (afterStep (loaded 0o71_000300#24 0#24 0o40_000005#24 0#24)) = (0o1001#15, 6#64) := by decide

theorem test_jnz_not_on_minus_zero :
    pcAndCycles (afterStep (loaded 0o73_000300#24 0#24 0o40_000000#24 0#24)) = (0o1001#15, 6#64) := by decide

theorem test_jnz_on_minus_five :
    pcAndCycles (afterStep (loaded 0o73_000300#24 0#24 0o40_000005#24 0#24)) = (0o300#15, 6#64) := by decide

theorem test_jsl_links_and_jumps_past :
    (let t := afterStep (placed 0o1000#15 0o27_000300#24 0#24); (t.load 0o300#15, t.pc)) = (0o00_001001#24, 0o301#15) := by decide

theorem test_jsl_at_the_top :
    (let t := afterStep (placed 0o77777#15 0o27_077777#24 0#24); (t.load 0o77777#15, t.pc)) = (0#24, 0#15) := by decide

theorem test_skg_zeros_are_equal :
    (afterStep (loaded 0o12_000200#24 0o40_000000#24 0#24 0#24)).pc = 0o1001#15 := by decide

theorem test_skg_minus_five_above_minus_six :
    (afterStep (loaded 0o12_000200#24 0o40_000006#24 0o40_000005#24 0#24)).pc = 0o1002#15 := by decide

theorem test_skn_zeros_differ :
    (afterStep (loaded 0o13_000200#24 0o40_000000#24 0#24 0#24)).pc = 0o1002#15 := by decide

theorem test_skn_equal_words :
    (afterStep (loaded 0o13_000200#24 5#24 5#24 0#24)).pc = 0o1001#15 := by decide

/-! ### Register transfer (section 2.8) -/

theorem test_tab :
    sums (afterStep (loaded 0o55_000000#24 0#24 0o40_000007#24 3#24)) = (0o40_000007#24, 0o40_000007#24, false) := by decide

theorem test_iab :
    sums (afterStep (loaded 0o57_000000#24 0#24 0o40_000007#24 3#24)) = (3#24, 0o40_000007#24, false) := by decide

theorem test_ldx_indexes_by_itself :
    (afterStep (((placed 0o1000#15 0o56_100200#24 0#24).writeX .x1 5#15).store 0o205#15 0o40_077777#24)).x1 = 0o77777#15 := by decide

theorem test_ldx_selector_zero :
    (let t := afterStep (placed 0o1000#15 0o56_000200#24 0o1234#24); (t.x1, t.x2, t.x3, t.cycles)) = (0#15, 0#15, 0#15, 5#64) := by decide

theorem test_six_selector_zero :
    (afterStep (placed 0o1000#15 0o66_000200#24 0o7777#24)).load 0o200#15 = 0#24 := by decide

theorem test_six_indexes_by_itself :
    (afterStep ((placed 0o1000#15 0o66_200200#24 0#24).writeX .x2 0o10#15)).load 0o210#15 = 0o00_000010#24 := by decide

/-! ### Shifts (sections 2.1 and 2.9) -/

theorem test_ars_to_minus_zero :
    (let t := afterStep (loaded 0o40_000037#24 0#24 0o77_777777#24 0#24); (t.a, t.cycles)) = (0o40_000000#24, 36#64) := by decide

theorem test_ars_indirect_count :
    (let t := afterStep ((loaded 0o40_400300#24 0#24 0o100#24 0#24).store 0o300#15 0o77_777703#24); (t.a, t.cycles)) = (0o10#24, 8#64) := by decide

theorem test_als_loses_the_high_bit :
    (let t := afterStep (loaded 0o41_000001#24 0#24 0o60_000000#24 0#24); (t.a, t.overflow)) = (0o40_000000#24, false) := by decide

theorem test_als_count_32_is_0 :
    (let t := afterStep (loaded 0o41_000040#24 0#24 0o17#24 0#24); (t.a, t.cycles)) = (0o17#24, 5#64) := by decide

/-! ### XEC (section 2.10) -/

theorem test_xec_of_a_taken_skip :
    pcAndCycles (afterStep ((loaded 0o02_000100#24 0#24 1#24 0#24).store 0o100#15 0o13_000200#24)) = (0o102#15, 15#64) := by decide

theorem test_xec_of_xec_without_limit_and_at_limit_one :
    (xecRule none (direct 0o100#15) (((State.reset.setA 7#24).store 0o100#15 0o02_000110#24).store 0o110#15 0o55_000000#24)).map
      (fun e => (e.state.b, e.state.pc, e.cost)) = some (7#24, 0o111#15, 15) ∧
    (xecRule (some ⟨1, by decide⟩) (direct 0o100#15) (State.reset.store 0o100#15 0o02_000100#24)).map
      (fun e => (e.state.pc, e.state.halted, e.state.diagLog)) = some (0o101#15, true, [⟨0o02#6, 0o100#15⟩]) := by decide

/-! ### Host commands (sections 2.3, 2.11) -/

theorem test_reset_keeps_memory :
    (let t := ((placed 0o1234#15 7#24 0#24).setB 0o40_000001#24).resetCommand; (t.b, t.pc, t.load 0o1234#15)) = (0#24, 0#15, 7#24) := by decide

theorem test_init_clears_memory :
    ((placed 0o1234#15 7#24 0#24).init).load 0o1234#15 = 0#24 := by decide

/-! ### Witnesses: the hypotheses of each statement can be met -/

/-- A machine about to run `ADD 0200`: `A` = 5, `B` = −3, the operand 3, `overflow` set, `X[1]` = 2, a pointer at 0o300. -/
def busy : State :=
  ((((loaded 0o10_000200#24 3#24 5#24 0o40_000003#24).orOverflow true).writeX .x1 2#15).store 0o300#15 0o40_000200#24)

/-- `busy` while its instruction's rule runs: `PC` is one past the fetch address. -/
def fetched : State :=
  busy.advance

/-- `fetched` with the word `w` at 0o100, the target of `XEC 0100`. -/
def targeting (w : Word) : State :=
  fetched.store 0o100#15 w

/-- XEC of one word that is no XEC: a chain of one link, under every limit. -/
theorem chain_of_one {limit : Option DepthLimit} (w : Word) (j : Instr) (hw : (targeting w).load 0o100#15 = w) (hj : j.opcode ≠ 0o02#6)
    (hd : decode w = j := by decide) :
    ChainEndsIn limit (.xec (direct 0o100#15)) (targeting w) 1 j ((targeting w).setPc 0o101#15) := by
  have h := XecChain.first limit (direct 0o100#15) (targeting w)
  have he : effectiveAddress (direct 0o100#15) (targeting w) = 0o100#15 := rfl
  rw [he, hw, hd] at h
  exact ⟨h, fun hx => absurd hx hj⟩

theorem test_meets_StepRunsTheDecodedInstruction :
    busy.halted = false ∧ (Instr.add (direct 0o200#15)).wellFormed = true ∧ decode (busy.load busy.pc) = .add (direct 0o200#15) := by decide

theorem test_meets_HaltedStepDoesNothing : (busy.setHalted true).halted = true := by decide

theorem test_meets_DecodeOfEncodeIsIdentity : (Instr.unimpl76 ⟨true, .x3, 0o77777#15⟩).wellFormed = true := by decide

theorem test_meets_RawInstructionsAreCheckedAndEncoded :
    (63 < 64 ∧ 1 < 2 ∧ 3 < 4 ∧ 32767 < 32768) ∧ (RawInstr.mk 64 0 0 0).op = 64 ∧ (RawInstr.mk 0 2 0 0).indirect = 2 ∧
      (RawInstr.mk 0 0 4 0).index = 4 ∧ (RawInstr.mk 0 0 0 32768).addr = 32768 := by decide

theorem test_meets_CanonicalMemoriesWithEqualReadsAreEqual :
    Memory.wf [(0, 1#24), (32767, 2#24)] = true ∧ ∀ a : Addr, Memory.read [(0, 1#24), (32767, 2#24)] a = Memory.read [(0, 1#24), (32767, 2#24)] a :=
  ⟨by decide, fun _ => rfl⟩

theorem test_meets_EffectiveAddressIndexesThenIndirects :
    (direct 0#15).index = .x0 ∧ (direct 0#15).indirect = false ∧
      (⟨true, .x1, 0o77776#15⟩ : Fields).index ≠ .x0 ∧ (⟨true, .x1, 0o77776#15⟩ : Fields).indirect = true ∧
      indexedAddress ⟨true, .x1, 0o77776#15⟩ busy = 0#15 := by decide

theorem test_meets_StepChangesOnlyTheWordItsAccessesWrite :
    ∃ t : State, step (placed 0o1000#15 0o05_000200#24 7#24) = .next t ∧
      ∀ x ∈ stepAccesses (placed 0o1000#15 0o05_000200#24 7#24), x.written ≠ some 0o201#15 :=
  ⟨_, rfl, by decide⟩

theorem test_meets_StoredWordIsFetchedNext :
    fetched.memory.wf = true ∧ effectiveAddress (direct 0o1001#15) fetched = fetched.pc := by decide

theorem test_meets_EveryStepKeepsTheInvariant : ∃ t : State, Inv busy ∧ step busy = .next t :=
  ⟨_, ⟨by decide, by decide⟩, rfl⟩

theorem test_meets_EveryHostCommandKeepsTheInvariant :
    ∃ t : State, Inv busy ∧ busy.perform 0 (.write 0o77777 0) = .completed .done t :=
  ⟨_, ⟨by decide, by decide⟩, rfl⟩

theorem test_meets_OverflowIsStickyAndWrittenByThreeInstructions :
    ∃ t : State, fetched.overflow = true ∧ exec (.xec (direct 0o100#15)) (targeting 0o55_000000#24) = .next t ∧
      ChainEndsIn Config.xecDepthLimit (.xec (direct 0o100#15)) (targeting 0o55_000000#24) 1 (.tab (direct 0#15))
        ((targeting 0o55_000000#24).setPc 0o101#15) ∧
      (Instr.tab (direct 0#15)).opcode ∉ [0o10#6, 0o11#6, 0o35#6] :=
  ⟨_, by decide, rfl, chain_of_one 0o55_000000#24 (.tab (direct 0#15)) (by decide) (by decide), by decide⟩

theorem test_meets_InterruptEnabledIsNeverWritten :
    ∃ t u : State, exec (.add (direct 0o200#15)) fetched = .next t ∧
      busy.interruptEnabled = false ∧ busy.perform 0 .reset = .completed .done u :=
  ⟨_, _, rfl, by decide, rfl⟩

theorem test_meets_AccumulatorsHaveTheirNamedWriters :
    ∃ t : State, exec (.xec (direct 0o100#15)) (targeting 0o27_000300#24) = .next t ∧
      ChainEndsIn Config.xecDepthLimit (.xec (direct 0o100#15)) (targeting 0o27_000300#24) 1 (.jsl (direct 0o300#15))
        ((targeting 0o27_000300#24).setPc 0o101#15) ∧
      (Instr.jsl (direct 0o300#15)).opcode ∉
        [0o24#6, 0o10#6, 0o11#6, 0o15#6, 0o16#6, 0o17#6, 0o34#6, 0o35#6, 0o57#6, 0o40#6, 0o41#6] ∧
      (Instr.jsl (direct 0o300#15)).opcode ∉ [0o23#6, 0o34#6, 0o35#6, 0o55#6, 0o57#6] :=
  ⟨_, rfl, chain_of_one 0o27_000300#24 (.jsl (direct 0o300#15)) (by decide) (by decide), by decide, by decide⟩

theorem test_meets_IndexRegistersHaveTheirNamedWriter :
    ∃ t u : State, exec (.six ⟨false, .x1, 0o200#15⟩) fetched = .next t ∧
      ChainEndsIn Config.xecDepthLimit (.six ⟨false, .x1, 0o200#15⟩) fetched 0 (.six ⟨false, .x1, 0o200#15⟩) fetched ∧
      (Instr.six ⟨false, .x1, 0o200#15⟩).opcode ≠ 0o56#6 ∧
      exec (.xec (direct 0o100#15)) (targeting 0o56_100200#24) = .next u ∧
      ChainEndsIn Config.xecDepthLimit (.xec (direct 0o100#15)) (targeting 0o56_100200#24) 1 (.ldx ⟨false, .x1, 0o200#15⟩)
        ((targeting 0o56_100200#24).setPc 0o101#15) ∧
      (Instr.ldx ⟨false, .x1, 0o200#15⟩).opcode = 0o56#6 ∧ IndexReg.x2 ≠ .x1 :=
  ⟨_, _, rfl, ⟨.start, fun h => absurd h (by decide)⟩, by decide, rfl,
    chain_of_one 0o56_100200#24 (.ldx ⟨false, .x1, 0o200#15⟩) (by decide) (by decide), by decide, by decide⟩

theorem test_meets_MemoryHasItsNamedWriters :
    ∃ t u : State, exec (.lda (direct 0o200#15)) fetched = .next t ∧
      ChainEndsIn Config.xecDepthLimit (.lda (direct 0o200#15)) fetched 0 (.lda (direct 0o200#15)) fetched ∧
      (Instr.lda (direct 0o200#15)).opcode ∉ [0o05#6, 0o03#6, 0o27#6, 0o66#6] ∧
      exec (.xec (direct 0o100#15)) (targeting 0o05_000200#24) = .next u ∧
      ChainEndsIn Config.xecDepthLimit (.xec (direct 0o100#15)) (targeting 0o05_000200#24) 1 (.sta (direct 0o200#15))
        ((targeting 0o05_000200#24).setPc 0o101#15) ∧
      (Instr.sta (direct 0o200#15)).opcode ∈ [0o05#6, 0o03#6, 0o27#6, 0o66#6] :=
  ⟨_, _, rfl, ⟨.start, fun h => absurd h (by decide)⟩, by decide, rfl,
    chain_of_one 0o05_000200#24 (.sta (direct 0o200#15)) (by decide) (by decide), by decide⟩

theorem test_meets_HaltedIsSetByHltAndDecodeErrorsOnly :
    ∃ t : State, exec (.lda (direct 0o200#15)) (fetched.setHalted true) = .next t ∧ (fetched.setHalted true).halted = true ∧
      ChainEndsIn Config.xecDepthLimit (.lda (direct 0o200#15)) (fetched.setHalted true) 0 (.lda (direct 0o200#15))
        (fetched.setHalted true) ∧
      (Instr.lda (direct 0o200#15)).opcode = 0o24#6 :=
  ⟨_, rfl, by decide, ⟨.start, fun h => absurd h (by decide)⟩, by decide⟩

theorem test_meets_NoInstructionReadsTheOverflowFlag :
    ∃ t : State, exec (.div (direct 0o200#15)) fetched = .next t :=
  ⟨_, rfl⟩

theorem test_meets_NoResultDependsOnTheCycleCount :
    ∃ t : State, exec (.jsl ⟨true, .x0, 0o300#15⟩) fetched = .next t :=
  ⟨_, rfl⟩

theorem test_meets_HltHaltsAtItsOwnAddress : fetched.pc = 0o1000#15 + 1#15 := by decide

theorem test_meets_SteppingAfterHltChangesNothing :
    ∃ t : State, (placed 0o1000#15 0#24 0#24).halted = false ∧ decode (placed 0o1000#15 0#24 0#24).fetchWord = .hlt (direct 0#15) ∧
      step (placed 0o1000#15 0#24 0#24) = .next t :=
  ⟨_, by decide, by decide, rfl⟩

theorem test_meets_UnimplementedOpcodeIsADecodeError :
    Instr.unimpl76 (direct 0#15) ∈ ([.unimpl01 (direct 0#15), .unimpl76 (direct 0#15)] : List Instr) := by decide

theorem test_meets_canonical_memory_of_the_storing_statements : fetched.memory.wf = true := by decide

theorem test_meets_AddGivesTheSignedSumInRange :
    (toSigned 0o37_777776#24 + toSigned 1#24).natAbs = 8388607 ∧ toSigned 0o40_000005#24 + toSigned 5#24 = 0 ∧
      (toSigned 0o77_777777#24 + toSigned 0o40_000001#24).natAbs = 8388608 := by decide

theorem test_meets_SubGivesTheSignedDifferenceInRange :
    (toSigned 0o37_777776#24 - toSigned 0o40_000001#24).natAbs = 8388607 ∧ toSigned 0o40_000005#24 - toSigned 0o40_000005#24 = 0 ∧
      (toSigned 0o77_777777#24 - toSigned 1#24).natAbs = 8388608 := by decide

theorem test_meets_OverflowingSumKeepsSignAndLowMagnitude :
    ∃ t u : State,
      8388607 < (toSigned 0o37_777777#24 + toSigned (operandM (direct 0o200#15) (loaded 0#24 1#24 0o37_777777#24 0#24))).natAbs ∧
      exec (.add (direct 0o200#15)) (loaded 0#24 1#24 0o37_777777#24 0#24) = .next t ∧
      8388607 < (toSigned 0o77_777777#24 - toSigned (operandM (direct 0o200#15) (loaded 0#24 1#24 0o77_777777#24 0#24))).natAbs ∧
      exec (.sub (direct 0o200#15)) (loaded 0#24 1#24 0o77_777777#24 0#24) = .next u :=
  ⟨_, _, by decide, rfl, by decide, rfl⟩

theorem test_meets_AddThenSubRestoresA :
    ∃ t : State, (toSigned fetched.a + toSigned (operandM (direct 0o200#15) fetched)).natAbs ≤ 8388607 ∧
      exec (.add (direct 0o200#15)) fetched = .next t ∧ operandM (direct 0o200#15) t = operandM (direct 0o200#15) fetched :=
  ⟨_, by decide, rfl, by decide⟩

theorem test_meets_MpyGivesTheExactProduct :
    (mag fetched.b).toNat * (mag (operandM (direct 0o200#15) fetched)).toNat ≠ 0 ∧
      (mag fetched.b).toNat * (mag (operandM (direct 0o201#15) fetched)).toNat = 0 := by decide

theorem test_meets_DivGivesQuotientAndRemainderOrSetsOverflow :
    (mag 3#24).toNat ≤ (mag 0o40_000003#24).toNat ∧ (mag 0o40_000002#24).toNat < (mag 3#24).toNat := by decide

theorem test_meets_ProperDivideMeetsTheDivisionEquation :
    ∃ t : State, (mag (fetched.setA 0o40_000002#24).a).toNat < (mag (operandM (direct 0o200#15) (fetched.setA 0o40_000002#24))).toNat ∧
      exec (.div (direct 0o200#15)) (fetched.setA 0o40_000002#24) = .next t :=
  ⟨_, by decide, rfl⟩

theorem test_meets_MpyThenDivRecoversB :
    ∃ t : State, (mag (operandM (direct 0o200#15) fetched)).toNat ≠ 0 ∧ exec (.mpy (direct 0o200#15)) fetched = .next t ∧
      operandM (direct 0o200#15) t = operandM (direct 0o200#15) fetched :=
  ⟨_, by decide, rfl, by decide⟩

theorem test_meets_JslThenIndirectJumpReturns :
    ∃ t : State, fetched.memory.wf = true ∧ exec (.jsl (direct 0o300#15)) fetched = .next t ∧
      t.load (effectiveAddress (direct 0o300#15) fetched) = 0o1001#24 :=
  ⟨_, by decide, rfl, by decide⟩

theorem test_meets_LdxLoadsTheSelectedIndexRegister :
    (⟨false, .x1, 0#15⟩ : Fields).index ≠ .x0 ∧ (direct 0#15).index = .x0 ∧ IndexReg.x0 ≠ .x1 := by decide

theorem test_meets_ShiftsMoveTheMagnitudeOnly : 31 = (effectiveAddress (direct 0o77777#15) fetched).toNat % 32 := by decide

theorem test_meets_XecRunsTheWordAtItsEffectiveAddress :
    decode ((targeting 0o55_000000#24).load (effectiveAddress (direct 0o100#15) (targeting 0o55_000000#24))) = .tab (direct 0#15) ∧
      (Instr.tab (direct 0#15)).opcode ≠ 0o02#6 := by decide

theorem test_meets_XecDoesNotReturn :
    (∀ w : Word, 0o100#15 = effectiveAddress (direct 0o100#15) (targeting w)) ∧
    ((decode ((targeting 0o24_000200#24).load 0o100#15)).opcode = 0o24#6 ∧
      decode ((targeting 0o12_000200#24).load 0o100#15) = .skg (direct 0o200#15) ∧
      decode ((targeting 0o13_000200#24).load 0o100#15) = .skn (direct 0o200#15) ∧
      decode ((targeting 0o74_000300#24).load 0o100#15) = .jmp (direct 0o300#15) ∧
      decode ((targeting 0o70_000300#24).load 0o100#15) = .jpl (direct 0o300#15) ∧
      decode ((targeting 0o72_000300#24).load 0o100#15) = .jmi (direct 0o300#15) ∧
      decode ((targeting 0o71_000300#24).load 0o100#15) = .jze (direct 0o300#15) ∧
      decode ((targeting 0o73_000300#24).load 0o100#15) = .jnz (direct 0o300#15) ∧
      (decode ((targeting 0o27_000300#24).load 0o100#15) = .jsl (direct 0o300#15) ∧ (targeting 0o27_000300#24).memory.wf = true) ∧
      decode ((targeting 0#24).load 0o100#15) = .hlt (direct 0#15) ∧
      (decode ((targeting 0o76_000000#24).load 0o100#15)).opcode = 0o76#6) :=
  ⟨fun _ => rfl, by decide⟩

theorem test_meets_NestedXecObeysTheDepthLimit :
    (⟨1, by decide⟩ : DepthLimit).levels < 1 + 1 ∧
    (∀ l : DepthLimit, some (⟨2, by decide⟩ : DepthLimit) = some l → 2 ≤ l.levels) ∧
    (∀ l : DepthLimit, none = some l → 2 ≤ l.levels) ∧
    decode (((targeting 0o02_000110#24).store 0o110#15 0o55_000000#24).load 0o100#15) = .xec (direct 0o110#15) ∧
    decode (((targeting 0o02_000110#24).store 0o110#15 0o55_000000#24).load 0o110#15) = .tab (direct 0#15) ∧
    ∃ e : Effect, instrRule (.tab (direct 0#15)) { (targeting 0o02_000110#24).store 0o110#15 0o55_000000#24 with pc := 0o111#15 } = some e :=
  ⟨by decide, fun _ h => Option.some.inj h ▸ Nat.le_refl 2, fun _ h => (nomatch h), by decide, by decide, _, rfl⟩

theorem test_meets_SelfReferringXecIsStuck :
    decode ((targeting 0o02_000100#24).load (effectiveAddress (direct 0o100#15) (targeting 0o02_000100#24))) = .xec (direct 0o100#15) ∧
      effectiveAddress (direct 0o100#15) (targeting 0o02_000100#24) = effectiveAddress (direct 0o100#15) (targeting 0o02_000100#24) := by
  decide

/-- Executing the word at 0o100, an XEC of itself, is the rule of that XEC again. -/
theorem self_referring_target (nested : Fields → State → Option Effect) (p : Addr) :
    executeTarget nested (direct 0o100#15) ((targeting 0o02_000100#24).setPc p) =
      (nested (direct 0o100#15) ((targeting 0o02_000100#24).setPc 0o101#15)).map fun e => e.addCost 5 :=
  executeTarget_xec nested (direct 0o100#15) (direct 0o100#15) ((targeting 0o02_000100#24).setPc p) (by
    have h : decode ((targeting 0o02_000100#24).load 0o100#15) = .xec (direct 0o100#15) := by decide
    exact h)

/-- The XEC of itself at 0o100 has no effect with any fuel. -/
theorem self_referring_nested (fuel : Nat) :
    ∀ (depth : Nat) (p : Addr), nestedXec none fuel depth (direct 0o100#15) ((targeting 0o02_000100#24).setPc p) = none := by
  induction fuel with
  | zero => exact fun _ _ => rfl
  | succ n ih =>
    intro depth p
    rw [nestedXec_succ none n depth _ _ rfl, self_referring_target, ih]
    rfl

theorem test_meets_StuckXecReallyNeverEnds : xecRule none (direct 0o100#15) (targeting 0o02_000100#24) = none := by
  show executeTarget (nestedXec none memWords 1) (direct 0o100#15) ((targeting 0o02_000100#24).setPc 0o1001#15) = none
  rw [self_referring_target, self_referring_nested]
  rfl

theorem test_meets_XecChainHasTheOutcomeOfItsLastWord :
    ChainEndsIn Config.xecDepthLimit (.xec (direct 0o100#15)) (targeting 0o55_000000#24) 1 (.tab (direct 0#15))
      ((targeting 0o55_000000#24).setPc 0o101#15) ∧
    ChainEndsIn (some ⟨1, by decide⟩) (.xec (direct 0o100#15)) (targeting 0o02_000100#24) 1 (.xec (direct 0o100#15))
      ((targeting 0o02_000100#24).setPc 0o101#15) ∧
    ∃ e : Effect, ruleOf (xecRule Config.xecDepthLimit) (.xec (direct 0o100#15)) (targeting 0o55_000000#24) = some e :=
  ⟨chain_of_one 0o55_000000#24 (.tab (direct 0#15)) (by decide) (by decide),
    ⟨XecChain.first _ _ _, fun _ => ⟨_, rfl, by decide⟩⟩, _, rfl⟩

theorem test_meets_StuckXecReallyNeverEnds_effect :
    ∃ e : Effect, xecRule Config.xecDepthLimit (direct 0o100#15) (targeting 0o55_000000#24) = some e :=
  ⟨_, rfl⟩

theorem test_meets_CostTable :
    ∀ t : State, exec (.tab (direct 0#15)) { targeting 0o55_000000#24 with pc := 0o101#15 } = .next t →
      Charged 5 (targeting 0o55_000000#24) t := by
  intro t h
  cases h
  rfl

theorem test_meets_StepCommandReturnsTheCostItCharges :
    ∃ t : State, busy.perform 0 .step = .completed (.cost 10) t :=
  ⟨_, rfl⟩

theorem test_meets_RunStopsAtHaltOrBudgetWithItsTotal :
    ∃ t u : State, busy.run 2 0#64 = .finished 15 t ∧ busy.halted = false ∧ busy.run 2 10#64 = .finished 10 u ∧ StepsCost busy 1 10 u ∧
      BudgetAllows 10#64 0 busy ∧ ¬ BudgetAllows 10#64 10 u ∧
      (busy.setHalted true).run 0 0#64 = .finished 0 (busy.setHalted true) ∧ (busy.setHalted true).halted = true :=
  ⟨_, _, rfl, by decide, rfl, .more 0 0 10 _ _ .start rfl, ⟨by decide, .inr (by decide)⟩,
    fun h => h.2.elim (by decide) (by decide), rfl, by decide⟩

theorem test_meets_HostWriteThenRead :
    busy.memory.wf = true ∧ 32768 % 32768 = 0 % 32768 ∧ 32767 % 32768 ≠ 32768 % 32768 := by decide

theorem test_meets_PresetThenInspect :
    ((Register.halted, 1) : Register × Nat) ∈ [(.pc, 15), (.halted, 1)] ∧ Register.a ≠ Register.halted ∧
      Register.cycles ∈ [Register.x .x0, .overflow, .interruptEnabled, .cycles] := by decide

theorem test_meets_LoaderPlacesBigEndianWords :
    busy.memory.wf = true ∧ 3 * 0 + 2 < ([0x50#8, 0x01#8, 0x00#8, 0xff#8, 0xee#8] : List Byte).length ∧
      ([0x50#8, 0x01#8, 0x00#8, 0xff#8, 0xee#8] : List Byte).length ≤ 3 * 1 + 2 := by decide

end Sys2Proof.Tests
end

