-- ==== Sys2Proof/Proofs/Scope.lean ====
section
/-! PROOFS. The family 00_scope.md: words of the encoding table decode as written, and a proper divide meets the division equation. -/

namespace Sys2Proof.Machine

open Sys2Proof

/-! ### Signed readings -/

/-- `smw` drops only the sign of a zero, which `to_signed` does not read (R11, R13). -/
theorem toSigned_smw (s : Bool) (m : Magnitude) :
    toSigned (smw s m) = if s then -((mag (smw s m)).toNat : Int) else ((mag (smw s m)).toNat : Int) := by
  rw [mag_smw, smw, toSigned_signMag]
  by_cases hm : m = 0#23 <;> simp [hm]

/-! ### Quotient and remainder as numbers (R471) -/

/-- In a proper divide the quotient fits its 23 bits. -/
theorem dividend_div_lt {a m : Word} (b : Word) (h : (mag a).toNat < (mag m).toNat) :
    dividend a b / (mag m).toNat < 2 ^ 23 := by
  have hb := mag_lt b
  rw [Nat.div_lt_iff_lt_mul (by omega), dividend]
  omega

/-- The remainder by a nonzero divisor fits its 23 bits. -/
theorem dividend_mod_lt (a b : Word) {m : Word} (h : 0 < (mag m).toNat) : dividend a b % (mag m).toNat < 2 ^ 23 :=
  (Nat.mod_lt _ h).trans (mag m).isLt

/-- The magnitude of the quotient word of a proper divide. -/
theorem mag_quotient {a m : Word} (b : Word) (h : (mag a).toNat < (mag m).toNat) :
    (mag (quotient a b m)).toNat = dividend a b / (mag m).toNat := by
  rw [quotient, mag_smw, BitVec.toNat_ofNat, Nat.mod_eq_of_lt (dividend_div_lt b h)]

/-- The magnitude of the remainder word, the divisor being nonzero. -/
theorem mag_remainder (a b : Word) {m : Word} (h : 0 < (mag m).toNat) :
    (mag (remainder a b m)).toNat = dividend a b % (mag m).toNat := by
  rw [remainder, mag_smw, BitVec.toNat_ofNat, Nat.mod_eq_of_lt (dividend_mod_lt a b h)]

/-! ### The division equation -/

/-- Dividing magnitudes and then applying the signs of R471 is signed division, truncated toward zero. -/
theorem signed_dividend_eq {a m : Word} (b : Word) (h : (mag a).toNat < (mag m).toNat) :
    (if sgn a then -(dividend a b : Int) else (dividend a b : Int)) =
      toSigned (quotient a b m) * toSigned m + toSigned (remainder a b m) := by
  have euclid : ((dividend a b / (mag m).toNat : Nat) : Int) * (mag m).toNat + (dividend a b % (mag m).toNat : Nat) =
      dividend a b := by
    exact_mod_cast Nat.div_add_mod' (dividend a b) (mag m).toNat
  have hq : toSigned (quotient a b m) = _ := toSigned_smw (sgn a ^^ sgn m) _
  have hr : toSigned (remainder a b m) = _ := toSigned_smw (sgn a) _
  rw [← quotient, mag_quotient b h] at hq
  rw [← remainder, mag_remainder a b (by omega)] at hr
  rw [hq, hr, toSigned, ← euclid]
  cases sgn a <;> cases sgn m <;>
    simp only [Bool.xor_true, Bool.xor_false, Bool.not_true, Bool.not_false, Bool.false_eq_true, if_true, if_false] <;> ring

/-- The remainder is smaller than the divisor in magnitude. -/
theorem natAbs_remainder_lt (a b : Word) {m : Word} (h : 0 < (mag m).toNat) :
    (toSigned (remainder a b m)).natAbs < (mag m).toNat := by
  rw [natAbs_toSigned, mag_remainder a b h]
  exact Nat.mod_lt _ h

/-! ### The instruction -/

/-- What DIV does when it is proper: the quotient goes to `B`, the remainder to `A` (R471). -/
theorem divRule_state_of_proper {f : Fields} {s : State} (h : (mag s.a).toNat < (mag (operandM f s)).toNat) :
    (divRule f s).state = (s.setA (remainder s.a s.b (operandM f s))).setB (quotient s.a s.b (operandM f s)) := by
  have proper : divideImproper s.a (operandM f s) = false := by simp [divideImproper, h]
  simp [divRule, proper]

/-- `A` and `B` after a proper DIV. -/
theorem exec_div_of_proper {f : Fields} {s t : State} (h : (mag s.a).toNat < (mag (operandM f s)).toNat)
    (ht : exec (.div f) s = .next t) :
    t.a = remainder s.a s.b (operandM f s) ∧ t.b = quotient s.a s.b (operandM f s) := by
  obtain rfl : (divRule f s).commit = t := (settle_eq_next _ _).1 ht
  simp [divRule_state_of_proper h]

end Sys2Proof.Machine

namespace Sys2Proof.Proofs

open Sys2Proof Sys2Proof.Machine

/-- Settles O38: the Euclidean equation of the magnitudes, with the signs of R471 applied. -/
theorem properDivideMeetsTheDivisionEquation : Obligations.ProperDivideMeetsTheDivisionEquation := by
  intro f s t proper ht
  obtain ⟨ha, hb⟩ := exec_div_of_proper proper ht
  rw [ha, hb]
  exact ⟨signed_dividend_eq s.b proper, natAbs_remainder_lt s.a s.b (by omega)⟩

/-- Settles O3: the decoder is evaluated on each of the seven words. -/
theorem decodesWordsWrittenFromTheTable : Obligations.DecodesWordsWrittenFromTheTable := by
  unfold Obligations.DecodesWordsWrittenFromTheTable
  decide

end Sys2Proof.Proofs
end

/-! PROOFS. The family 10_state.md: the invariant of reachable states, what each instruction may write, which state no instruction reads,
and the host's commands on the registers and the store. -/

namespace Sys2Proof.Machine

open Sys2Proof

/-! ### What an instruction can do to the state, said once -/

/-- The opcodes whose rule is not the decode-error outcome, XEC's apart. -/
def implementedButXec : List Opcode :=
  [0o00#6, 0o03#6, 0o05#6, 0o10#6, 0o11#6, 0o12#6, 0o13#6, 0o15#6, 0o16#6, 0o17#6, 0o23#6, 0o24#6, 0o27#6, 0o34#6, 0o35#6, 0o40#6,
    0o41#6, 0o55#6, 0o56#6, 0o57#6, 0o66#6, 0o70#6, 0o71#6, 0o72#6, 0o73#6, 0o74#6, 0o77#6]

/-- The states that the instruction `i`, as the last word of a chain, can leave behind from `s`, before its cost is charged: one constructor
for each set of fields that a rule writes, with the opcodes that write it. An XEC as the last word is one that the limit stops. -/
inductive Leaves (i : Instr) (s : State) : State → Prop where
  | pcAt (h : i.opcode ∈ [0o12#6, 0o13#6, 0o70#6, 0o71#6, 0o72#6, 0o73#6, 0o74#6, 0o77#6]) (p : Addr) : Leaves i s (s.setPc p)
  | halted (h : i.opcode = 0o00#6) (p : Addr) : Leaves i s ((s.setHalted true).setPc p)
  | inA (h : i.opcode ∈ [0o15#6, 0o16#6, 0o17#6, 0o24#6, 0o40#6, 0o41#6]) (v : Word) : Leaves i s (s.setA v)
  | inB (h : i.opcode ∈ [0o23#6, 0o55#6]) (v : Word) : Leaves i s (s.setB v)
  | inAB (h : i.opcode ∈ [0o34#6, 0o35#6, 0o57#6]) (v w : Word) : Leaves i s ((s.setA v).setB w)
  | sumInA (h : i.opcode ∈ [0o10#6, 0o11#6]) (v : Int) : Leaves i s (s.takeSum v)
  | improperDivide (h : i.opcode = 0o35#6) : Leaves i s (s.orOverflow true)
  | inX (h : i.opcode = 0o56#6) (v : Addr) : Leaves i s (s.writeX i.fields.index v)
  | stored (h : i.opcode ∈ [0o03#6, 0o05#6, 0o66#6]) (v : Word) : Leaves i s (s.store (effectiveAddress i.fields s) v)
  | linked (h : i.opcode = 0o27#6) (v : Word) (p : Addr) : Leaves i s ((s.store (effectiveAddress i.fields s) v).setPc p)
  | decodeError (h : i.opcode ∉ implementedButXec) : Leaves i s (s.decodeError i.opcode).state

/-- A conditional jump moves `PC` or leaves it. -/
theorem Leaves.jumpIf {i : Instr} {s : State} (h : i.opcode ∈ [0o12#6, 0o13#6, 0o70#6, 0o71#6, 0o72#6, 0o73#6, 0o74#6, 0o77#6])
    (c : Bool) (target : Addr) : Leaves i s (s.jumpIf c target) := by
  cases c with
  | false => exact .pcAt h s.pc
  | true => exact .pcAt h target

/-- A conditional skip is a conditional jump one word on. -/
theorem State.skipIf_eq_jumpIf (s : State) (c : Bool) : s.skipIf c = s.jumpIf c (s.pc + 1#15) := rfl

/-- Every rule but XEC's leaves one of these states. -/
theorem leaves_of_ruleOf {x : Fields → State → Option Effect} {i : Instr} {s : State} {e : Effect}
    (hi : i.opcode ≠ 0o02#6) (h : ruleOf x i s = some e) : Leaves i s e.state := by
  cases i with
  | xec f => exact absurd rfl hi
  | hlt f => cases h; exact .halted rfl _
  | nop f => cases h; exact .pcAt (by simp [Instr.opcode]) s.pc
  | jmp f => cases h; exact .pcAt (by simp [Instr.opcode]) _
  | jpl f | jmi f | jze f | jnz f => cases h; exact .jumpIf (by simp [Instr.opcode]) _ _
  | skg f | skn f => cases h; exact .jumpIf (by simp [Instr.opcode]) _ (s.pc + 1#15)
  | lda f | ana f | ora f | era f | ars f | als f => cases h; exact .inA (by simp [Instr.opcode]) _
  | ldb f | tab f => cases h; exact .inB (by simp [Instr.opcode]) _
  | mpy f | iab f => cases h; exact .inAB (by simp [Instr.opcode]) _ _
  | add f | sub f => cases h; exact .sumInA (by simp [Instr.opcode]) _
  | div f =>
    cases h
    simp only [divRule]
    split
    · exact .improperDivide rfl
    · exact .inAB (by simp [Instr.opcode]) _ _
  | ldx f => cases h; exact .inX rfl _
  | sta f | stb f | six f => cases h; exact .stored (by simp [Instr.opcode]) _
  | jsl f => cases h; exact .linked rfl _ _
  | _ => cases h; exact .decodeError (by simp [implementedButXec, Instr.opcode])

/-- What is true of every state an instruction can leave, and goes through XEC's write of `PC`, is true of every effect, XEC chains
included. -/
theorem instrRule_of_leaves {P : State → State → Prop} (leaves : ∀ i s t, Leaves i s t → P s t)
    (throughPc : ∀ s t v, P (s.setPc v) t → P s t) {i : Instr} {s : State} {e : Effect} (h : instrRule i s = some e) :
    P s e.state :=
  instrRule_induct P (fun _ _ _ _ hi he => leaves _ _ _ (leaves_of_ruleOf hi he))
    (fun s => leaves (.xec ⟨false, .x0, 0#15⟩) s _ (.decodeError (by simp [implementedButXec, Instr.opcode]))) throughPc i s e h

/-- What `exec` answers is a state that the last word of the chain leaves, from the state that differs in `PC` alone, charged. -/
theorem exec_chain_leaves {i j : Instr} {s t u : State} {n : Nat} (h : exec i s = .next t)
    (hc : ChainEndsIn Config.xecDepthLimit i s n j u) :
    ∃ (p : Addr) (v : State) (c : Nat), Leaves j (s.setPc p) v ∧ t = v.addCycles c := by
  obtain ⟨e, hj, rfl⟩ := exec_chain_end h hc
  refine ⟨u.pc, e.state, 5 * n + e.cost, ?_, rfl⟩
  rw [← hc.1.same_but_pc]
  obtain ⟨hp, he⟩ | ⟨hx, rfl⟩ := hj
  · exact leaves_of_ruleOf hp he
  · rw [xecLimitRule, ← hx]
    exact .decodeError (by simp [hx, implementedButXec])

/-! ### What each of these states keeps -/

section Keeps

variable {i : Instr} {s t : State}

theorem Leaves.interruptEnabled (h : Leaves i s t) : t.interruptEnabled = s.interruptEnabled := by
  cases h <;> simp [State.takeSum]

theorem Leaves.cycles (h : Leaves i s t) : t.cycles = s.cycles := by
  cases h <;> simp [State.takeSum]

theorem Leaves.memory_wf (h : Leaves i s t) (hs : s.memory.wf = true) : t.memory.wf = true := by
  cases h with
  | stored | linked => exact Memory.write_wf _ _ _ hs
  | _ => simpa [State.takeSum] using hs

theorem Leaves.overflow_sticky (h : Leaves i s t) (hs : s.overflow = true) : t.overflow = true := by
  cases h <;> simp [State.takeSum, hs]

theorem Leaves.halted_sticky (h : Leaves i s t) (hs : s.halted = true) : t.halted = true := by
  cases h <;> simp [State.takeSum, hs]

/-- `overflow` is written by ADD, SUB and DIV alone (R106). -/
theorem Leaves.overflow_eq (h : Leaves i s t) (hi : i.opcode ∉ [0o10#6, 0o11#6, 0o35#6]) : t.overflow = s.overflow := by
  cases h with
  | sumInA ho | improperDivide ho => simp_all
  | _ => simp

/-- `A` has the writers that R101 names. -/
theorem Leaves.a_eq (h : Leaves i s t)
    (hi : i.opcode ∉ [0o24#6, 0o10#6, 0o11#6, 0o15#6, 0o16#6, 0o17#6, 0o34#6, 0o35#6, 0o57#6, 0o40#6, 0o41#6]) : t.a = s.a := by
  cases h with
  | inA ho | inAB ho | sumInA ho => simp_all
  | _ => simp

/-- `B` has the writers that R102 names. -/
theorem Leaves.b_eq (h : Leaves i s t) (hi : i.opcode ∉ [0o23#6, 0o34#6, 0o35#6, 0o55#6, 0o57#6]) : t.b = s.b := by
  cases h with
  | inB ho | inAB ho => simp_all
  | _ => simp [State.takeSum]

/-- The index registers are written by LDX alone (R103). -/
theorem Leaves.readX_eq (h : Leaves i s t) (hi : i.opcode ≠ 0o56#6) (r : IndexReg) : t.readX r = s.readX r := by
  cases h with
  | inX ho => exact absurd ho hi
  | _ => simp [State.takeSum]

/-- No instruction writes an index register that its selector does not name (R532). -/
theorem Leaves.readX_other (h : Leaves i s t) (r : IndexReg) (hr : r ≠ i.fields.index) : t.readX r = s.readX r := by
  cases h with
  | inX ho v => exact s.readX_writeX_other _ r v hr
  | _ => simp [State.takeSum]

/-- Memory has the writers that R111 names. -/
theorem Leaves.load_eq (h : Leaves i s t) (hi : i.opcode ∉ [0o05#6, 0o03#6, 0o27#6, 0o66#6]) (q : Addr) : t.load q = s.load q := by
  cases h with
  | stored ho | linked ho => simp_all
  | _ => simp [State.takeSum]

/-- No instruction writes a word but the one at its effective address. -/
theorem Leaves.load_other (h : Leaves i s t) (q : Addr) (hq : q ≠ effectiveAddress i.fields s) : t.load q = s.load q := by
  cases h with
  | stored _ v | linked _ v => exact s.load_store_other _ q v hq
  | _ => simp [State.takeSum]

/-- `halted` is written by HLT and the decode-error outcome alone (R107). -/
theorem Leaves.halted_eq (h : Leaves i s t) (hi : i.opcode ∈ implementedButXec) (h0 : i.opcode ≠ 0o00#6) : t.halted = s.halted := by
  cases h with
  | halted ho => exact absurd ho h0
  | decodeError ho => exact absurd hi ho
  | _ => simp [State.takeSum]

/-- The decode-error outcome alone emits an event (R126). -/
theorem Leaves.diagLog_eq (h : Leaves i s t) (hi : i.opcode ∈ implementedButXec) : t.diagLog = s.diagLog := by
  cases h with
  | decodeError ho => exact absurd hi ho
  | _ => simp [State.takeSum]

end Keeps

/-! ### The effect of a rule, XEC chains included -/

theorem instrRule_interruptEnabled {i : Instr} {s : State} {e : Effect} (h : instrRule i s = some e) :
    e.state.interruptEnabled = s.interruptEnabled :=
  instrRule_of_leaves (P := fun s t => t.interruptEnabled = s.interruptEnabled) (fun _ _ _ h => h.interruptEnabled)
    (fun _ _ _ h => h) h

/-- No rule writes `cycles`: the step charges its cost (R400). -/
theorem instrRule_cycles {i : Instr} {s : State} {e : Effect} (h : instrRule i s = some e) : e.state.cycles = s.cycles :=
  instrRule_of_leaves (P := fun s t => t.cycles = s.cycles) (fun _ _ _ h => h.cycles) (fun _ _ _ h => h) h

theorem instrRule_memory_wf {i : Instr} {s : State} {e : Effect} (h : instrRule i s = some e) (hs : s.memory.wf = true) :
    e.state.memory.wf = true :=
  instrRule_of_leaves (P := fun s t => s.memory.wf = true → t.memory.wf = true) (fun _ _ _ h => h.memory_wf)
    (fun _ _ _ h => h) h hs

theorem instrRule_overflow_sticky {i : Instr} {s : State} {e : Effect} (h : instrRule i s = some e) (hs : s.overflow = true) :
    e.state.overflow = true :=
  instrRule_of_leaves (P := fun s t => s.overflow = true → t.overflow = true) (fun _ _ _ h => h.overflow_sticky)
    (fun _ _ _ h => h) h hs

/-! ### State that no instruction reads -/

/-- `g` changes nothing that an instruction reads, and it does not matter whether an instruction's writes come before it or after it. -/
structure Unseen (g : State → State) : Prop where
  a (s : State) : (g s).a = s.a
  b (s : State) : (g s).b = s.b
  pc (s : State) : (g s).pc = s.pc
  readX (s : State) (r : IndexReg) : (g s).readX r = s.readX r
  load (s : State) (q : Addr) : (g s).load q = s.load q
  setA (s : State) (v : Word) : (g s).setA v = g (s.setA v)
  setB (s : State) (v : Word) : (g s).setB v = g (s.setB v)
  writeX (s : State) (r : IndexReg) (v : Addr) : (g s).writeX r v = g (s.writeX r v)
  setPc (s : State) (v : Addr) : (g s).setPc v = g (s.setPc v)
  store (s : State) (q : Addr) (v : Word) : (g s).store q v = g (s.store q v)
  orOverflow (s : State) (c : Bool) : (g s).orOverflow c = g (s.orOverflow c)
  setHalted (s : State) (h : Bool) : (g s).setHalted h = g (s.setHalted h)
  emitDiag (s : State) (d : Diag) : (g s).emitDiag d = g (s.emitDiag d)
  addCycles (s : State) (c : Nat) : (g s).addCycles c = g (s.addCycles c)

/-- The same effect with the state changed by `g`. -/
def Effect.mapState (g : State → State) (e : Effect) : Effect where
  state := g e.state
  cost := e.cost

section Unseen

variable {g : State → State} (hg : Unseen g)
include hg

theorem Unseen.effectiveAddress (f : Fields) (s : State) : effectiveAddress f (g s) = effectiveAddress f s :=
  effectiveAddress_congr f (hg.readX s) (hg.load s)

theorem Unseen.operandM (f : Fields) (s : State) : operandM f (g s) = operandM f s :=
  operandM_congr f (hg.readX s) (hg.load s)

theorem Unseen.shiftCount (f : Fields) (s : State) : shiftCount f (g s) = shiftCount f s := by
  rw [Machine.shiftCount, hg.effectiveAddress, Machine.shiftCount]

theorem Unseen.takeSum (s : State) (v : Int) : (g s).takeSum v = g (s.takeSum v) := by
  rw [State.takeSum, hg.orOverflow, hg.setA, State.takeSum]

theorem Unseen.jumpIf (s : State) (c : Bool) (target : Addr) : (g s).jumpIf c target = g (s.jumpIf c target) := by
  cases c with
  | false => rfl
  | true => exact hg.setPc s target

theorem Unseen.decodeError (s : State) (op : Opcode) : (g s).decodeError op = (s.decodeError op).mapState g := by
  simp only [State.decodeError, Effect.mapState, State.fetchAddr, hg.setHalted, hg.emitDiag, hg.pc]

theorem Unseen.divRule (f : Fields) (s : State) : divRule f (g s) = (divRule f s).mapState g := by
  simp only [Machine.divRule, Effect.mapState, hg.a, hg.b, hg.operandM, hg.orOverflow, hg.setA, hg.setB]
  split <;> rfl

/-- If XEC's rule does not see `g`, no rule does. -/
theorem Unseen.ruleOf {x : Fields → State → Option Effect} (hx : ∀ f s, x f (g s) = (x f s).map (Effect.mapState g)) (i : Instr)
    (s : State) : ruleOf x i (g s) = (ruleOf x i s).map (Effect.mapState g) := by
  cases i with
  | xec f => exact hx f s
  | nop f => rfl
  | hlt f | jmp f => simp [Machine.ruleOf, Effect.mapState, hltRule, jmpRule, hg.setHalted, hg.setPc, hg.pc, hg.effectiveAddress]
  | jpl f | jmi f | jze f | jnz f =>
    simp [Machine.ruleOf, Effect.mapState, jplRule, jmiRule, jzeRule, jnzRule, hg.a, hg.jumpIf, hg.effectiveAddress]
  | skg f | skn f =>
    simp [Machine.ruleOf, Effect.mapState, skgRule, sknRule, State.skipIf_eq_jumpIf, hg.a, hg.pc, hg.jumpIf, hg.operandM]
  | lda f | ana f | ora f | era f =>
    simp [Machine.ruleOf, Effect.mapState, ldaRule, anaRule, oraRule, eraRule, hg.a, hg.setA, hg.operandM]
  | ars f | als f => simp [Machine.ruleOf, Effect.mapState, arsRule, alsRule, hg.a, hg.setA, hg.shiftCount]
  | ldb f | tab f => simp [Machine.ruleOf, Effect.mapState, ldbRule, tabRule, hg.a, hg.setB, hg.operandM]
  | mpy f | iab f => simp [Machine.ruleOf, Effect.mapState, mpyRule, iabRule, hg.a, hg.b, hg.setA, hg.setB, hg.operandM]
  | add f | sub f => simp [Machine.ruleOf, Effect.mapState, addRule, subRule, hg.a, hg.takeSum, hg.operandM]
  | div f => exact congrArg some (hg.divRule f s)
  | ldx f => simp [Machine.ruleOf, Effect.mapState, ldxRule, hg.writeX, hg.operandM]
  | sta f | stb f | six f =>
    simp [Machine.ruleOf, Effect.mapState, staRule, stbRule, sixRule, hg.a, hg.b, hg.readX, hg.store, hg.effectiveAddress]
  | jsl f => simp [Machine.ruleOf, Effect.mapState, jslRule, hg.pc, hg.store, hg.setPc, hg.effectiveAddress]
  | _ => exact congrArg some (hg.decodeError s _)

theorem Unseen.executeTarget {x : Fields → State → Option Effect} (hx : ∀ f s, x f (g s) = (x f s).map (Effect.mapState g))
    (f : Fields) (s : State) : executeTarget x f (g s) = (executeTarget x f s).map (Effect.mapState g) := by
  simp only [executeTarget_eq, hg.load, hg.effectiveAddress, hg.setPc, hg.ruleOf hx, Option.map_map]
  rfl

theorem Unseen.nestedXec (limit : Option DepthLimit) (fuel : Nat) :
    ∀ (depth : Nat) (f : Fields) (s : State),
      nestedXec limit fuel depth f (g s) = (nestedXec limit fuel depth f s).map (Effect.mapState g) := by
  induction fuel with
  | zero =>
    intro depth f s
    simp only [Machine.nestedXec, xecLimitRule, hg.decodeError]
    split <;> rfl
  | succ fuel ih =>
    intro depth f s
    simp only [Machine.nestedXec, xecLimitRule, hg.decodeError, hg.executeTarget (ih (depth + 1))]
    split <;> rfl

theorem Unseen.instrRule (i : Instr) (s : State) : instrRule i (g s) = (instrRule i s).map (Effect.mapState g) :=
  hg.ruleOf (hg.executeTarget (hg.nestedXec _ _ 1)) i s

/-- What no rule sees, `exec` does not see: the answer differs by `g` alone. -/
theorem Unseen.exec {i : Instr} {s t : State} (h : exec i s = .next t) : exec i (g s) = .next (g t) := by
  rw [exec_next_iff] at h ⊢
  obtain ⟨e, he, rfl⟩ := h
  refine ⟨e.mapState g, ?_, hg.addCycles e.state e.cost⟩
  rw [hg.instrRule, he]
  rfl

end Unseen

/-- No instruction reads `overflow`, and a flag that is set stays set (R106). -/
theorem unseen_setOverflow : Unseen fun s => { s with overflow := true } := by
  constructor
  case readX | writeX => intro s r; cases r <;> intros <;> rfl
  all_goals intros; rfl

/-- No instruction reads or writes `interrupt_enabled` (R108). -/
theorem unseen_interruptEnabled (b : Bool) : Unseen fun s => { s with interruptEnabled := b } := by
  constructor
  case readX | writeX => intro s r; cases r <;> intros <;> rfl
  all_goals intros; rfl

/-- No instruction reads `cycles`, and charges add up in any order (R109). -/
theorem unseen_addToCycles (c : CycleCount) : Unseen fun s => { s with cycles := s.cycles + c } := by
  constructor
  case readX | writeX => intro s r; cases r <;> intros <;> rfl
  case addCycles => intro s n; simp only [State.addCycles, add_right_comm]
  all_goals intros; rfl

/-! ### The step and the host's commands -/

/-- A step's effect, by cases: none of its own while halted; otherwise that of the instruction at `PC`. -/
theorem stepEffect_eq_some_iff (s : State) (e : Effect) :
    stepEffect s = some e ↔
      (s.halted = true ∧ e = ⟨s, 0⟩) ∨ (s.halted = false ∧ instrRule (decode s.fetchWord) s.advance = some e) := by
  unfold stepEffect
  cases s.halted <;> simp [eq_comm]

/-- A step at no cost moves nothing. -/
theorem Effect.commit_zero (s : State) : (⟨s, 0⟩ : Effect).commit = s := by
  simp [Effect.commit, State.addCycles]

/-- `step` answers the effect of the step, charged. -/
theorem step_next_iff_stepEffect (s t : State) : step s = .next t ↔ ∃ e : Effect, stepEffect s = some e ∧ e.commit = t := by
  unfold step stepEffect
  cases s.halted with
  | false => exact exec_next_iff _ _ _
  | true => simp [Effect.commit_zero]

/-- `step` stops exactly where the step has no effect. -/
theorem step_fault_iff_stepEffect (s : State) : step s = .fault .xecNeverEnds ↔ stepEffect s = none := by
  unfold step stepEffect
  cases s.halted with
  | false => exact exec_fault_iff _ _
  | true => simp

theorem stepEffect_cycles {s : State} {e : Effect} (h : stepEffect s = some e) : e.state.cycles = s.cycles := by
  obtain ⟨-, rfl⟩ | ⟨-, he⟩ := (stepEffect_eq_some_iff s e).1 h
  · rfl
  · exact (instrRule_cycles he).trans s.advance_cycles

theorem stepEffect_interruptEnabled {s : State} {e : Effect} (h : stepEffect s = some e) :
    e.state.interruptEnabled = s.interruptEnabled := by
  obtain ⟨-, rfl⟩ | ⟨-, he⟩ := (stepEffect_eq_some_iff s e).1 h
  · rfl
  · exact (instrRule_interruptEnabled he).trans s.advance_interruptEnabled

theorem stepEffect_inv {s : State} {e : Effect} (h : stepEffect s = some e) (hs : Inv s) : Inv e.commit := by
  obtain ⟨-, rfl⟩ | ⟨-, he⟩ := (stepEffect_eq_some_iff s e).1 h
  · exact hs
  · exact ⟨instrRule_memory_wf he hs.1, (instrRule_interruptEnabled he).trans hs.2⟩

/-- What every step keeps, a finished RUN keeps. -/
theorem runLoop_keeps {P : State → Prop} (hstep : ∀ s e, P s → stepEffect s = some e → P e.commit) (budget : Nat) :
    ∀ (fuel total : Nat) (s : State), P s →
      ∀ (result : Nat) (t : State), runLoop budget fuel total s = .finished result t → P t := by
  intro fuel
  induction fuel with
  | zero =>
    intro total s hs result t h
    simp only [runLoop] at h
    split at h <;> cases h
    exact hs
  | succ fuel ih =>
    intro total s hs result t h
    simp only [runLoop] at h
    split at h
    · split at h
      · cases h
      · next e he => exact ih _ _ (hstep s e hs he) _ _ h
    · cases h
      exact hs

/-- A PRESET that is not refused writes one register: neither the store, nor `interrupt_enabled`, nor the events. -/
theorem preset_frame {s t : State} {v : Nat} {r : Register} (h : s.preset v r = some t) :
    t.memory = s.memory ∧ t.interruptEnabled = s.interruptEnabled ∧ t.diagLog = s.diagLog := by
  cases r with
  | x r => cases r <;> cases h <;> exact ⟨rfl, rfl, rfl⟩
  | _ => cases h <;> exact ⟨rfl, rfl, rfl⟩

theorem preset_inv {s t : State} {v : Nat} {r : Register} (h : s.preset v r = some t) (hs : Inv s) : Inv t := by
  obtain ⟨hmem, hint, -⟩ := preset_frame h
  exact ⟨hmem ▸ hs.1, hint ▸ hs.2⟩

/-- The host's commands, packaged once: what INIT, RESET, every step, WRITE and PRESET keep, every completed command keeps. -/
theorem perform_keeps {P : State → Prop} (hinit : ∀ s, P s → P s.init) (hreset : ∀ s, P s → P s.resetCommand)
    (hstep : ∀ s e, P s → stepEffect s = some e → P e.commit) (hwrite : ∀ s addr word, P s → P (s.hostWrite addr word))
    (hpreset : ∀ s v r t, P s → s.preset v r = some t → P t)
    {s t : State} {fuel : Nat} {c : Command} {reply : Reply} (hs : P s) (h : s.perform fuel c = .completed reply t) : P t := by
  cases c with
  | init => cases h; exact hinit s hs
  | reset => cases h; exact hreset s hs
  | step =>
    simp only [State.perform] at h
    split at h <;> cases h
    next e he => exact hstep s e hs he
  | run budget =>
    simp only [State.perform] at h
    split at h <;> cases h
    next hrun => exact runLoop_keeps hstep _ _ _ s hs _ _ hrun
  | read addr => cases h; exact hs
  | write addr word => cases h; exact hwrite s addr word hs
  | inspect r =>
    simp only [State.perform] at h
    split at h <;> cases h <;> exact hs
  | preset r v =>
    simp only [State.perform] at h
    split at h <;> cases h
    · exact hs
    · next hp => exact hpreset s v r _ hs hp

/-- STEP completes with the step's effect: its cost returned, its state charged (R123). -/
theorem perform_step_completed_iff (s t : State) (fuel c : Nat) :
    s.perform fuel .step = .completed (.cost c) t ↔ ∃ e : Effect, stepEffect s = some e ∧ e.cost = c ∧ e.commit = t := by
  simp only [State.perform]
  cases stepEffect s <;> simp

/-- STEP never returns where the step has no effect (R571 (h)). -/
theorem perform_step_stuck_iff (s : State) (fuel : Nat) : s.perform fuel .step = .stuck ↔ stepEffect s = none := by
  simp only [State.perform]
  cases stepEffect s <;> simp

/-- A halted machine makes any number of steps and stays as it is (R400). -/
theorem run_of_halted {s : State} (h : s.halted = true) (n : Nat) : Sys2Proof.core.run n s = .next s := by
  induction n with
  | zero => rfl
  | succ n ih =>
    have hstep : Sys2Proof.core.step s = .next s := (step_next_iff s s).2 (.inl ⟨h, rfl⟩)
    rw [run_succ_next _ _ _ _ hstep, ih]

/-! ### The host's registers and addresses -/

/-- Two host addresses name one word if they are equal modulo 32768 (R124). -/
theorem hostAddr_eq_iff (p q : Nat) : hostAddr q = hostAddr p ↔ q % 32768 = p % 32768 := by
  rw [hostAddr, hostAddr, ← BitVec.toNat_inj, BitVec.toNat_ofNat, BitVec.toNat_ofNat]

/-- READ after WRITE (R124). -/
theorem hostRead_hostWrite (s : State) (p q w : Nat) (hs : s.memory.wf = true) :
    (s.hostWrite p w).hostRead q = if q % 32768 = p % 32768 then BitVec.ofNat 24 w else s.load (hostAddr q) := by
  rw [State.hostRead, State.hostWrite]
  split
  · next h => rw [(hostAddr_eq_iff p q).2 h, s.load_store_same _ _ hs]
  · next h => exact s.load_store_other _ _ _ fun h' => h ((hostAddr_eq_iff p q).1 h')

theorem inspect_setA_other (s : State) (v : Word) {q : Register} (hq : q ≠ .a) : (s.setA v).inspect q = s.inspect q := by
  cases q with
  | a => exact absurd rfl hq
  | x k => cases k <;> rfl
  | _ => rfl

theorem inspect_setB_other (s : State) (v : Word) {q : Register} (hq : q ≠ .b) : (s.setB v).inspect q = s.inspect q := by
  cases q with
  | b => exact absurd rfl hq
  | x k => cases k <;> rfl
  | _ => rfl

theorem inspect_setPc_other (s : State) (v : Addr) {q : Register} (hq : q ≠ .pc) : (s.setPc v).inspect q = s.inspect q := by
  cases q with
  | pc => exact absurd rfl hq
  | x k => cases k <;> rfl
  | _ => rfl

theorem inspect_setHalted_other (s : State) (h : Bool) {q : Register} (hq : q ≠ .halted) :
    (s.setHalted h).inspect q = s.inspect q := by
  cases q with
  | halted => exact absurd rfl hq
  | x k => cases k <;> rfl
  | _ => rfl

/-- INSPECT of an index register: `X[0]` is not in the surface (R125). -/
theorem inspect_x (s : State) (r : IndexReg) : s.inspect (.x r) = if r = .x0 then none else some (s.readX r).toNat := by
  cases r <;> rfl

theorem inspect_writeX_other (s : State) (r : IndexReg) (v : Addr) {q : Register} (hq : q ≠ .x r) :
    (s.writeX r v).inspect q = s.inspect q := by
  cases q with
  | x k => rw [inspect_x, inspect_x, s.readX_writeX_other r k v fun h => hq (h ▸ rfl)]
  | _ => simp [State.inspect]

/-- PRESET of an index register: `X[0]` is refused (R125). -/
theorem preset_x (s : State) (v : Nat) (r : IndexReg) :
    s.preset v (.x r) = if r = .x0 then none else some (s.writeX r (BitVec.ofNat 15 v)) := by
  cases r <;> rfl

/-- A PRESET that is not refused is seen by INSPECT of no other register. -/
theorem inspect_preset_other {s t : State} {v : Nat} {r q : Register} (h : s.preset v r = some t) (hq : q ≠ r) :
    t.inspect q = s.inspect q := by
  cases r with
  | a => cases h; exact inspect_setA_other s _ hq
  | b => cases h; exact inspect_setB_other s _ hq
  | pc => cases h; exact inspect_setPc_other s _ hq
  | halted => cases h; exact inspect_setHalted_other s _ hq
  | x r =>
    rw [preset_x] at h
    split at h <;> cases h
    exact inspect_writeX_other s r _ hq
  | overflow | interruptEnabled | cycles => cases h

/-- The width of a register that PRESET can set (R100, R125). -/
def Register.width : Register → Nat
  | .a | .b => 24
  | .x _ | .pc => 15
  | .overflow | .halted | .interruptEnabled => 1
  | .cycles => 64

/-- INSPECT gives back the value of a PRESET that is not refused, modulo the width of the register (R125). -/
theorem inspect_preset_same {s t : State} {v : Nat} {r : Register} (h : s.preset v r = some t) :
    t.inspect r = some (v % 2 ^ r.width) := by
  cases r with
  | a | b | pc => cases h; exact congrArg some (BitVec.toNat_ofNat ..)
  | halted =>
    cases h
    obtain hv | hv := Nat.mod_two_eq_zero_or_one v <;> simp [State.inspect, Register.width, hv]
  | x r =>
    rw [preset_x] at h
    split at h <;> cases h
    next hr => rw [inspect_x, s.readX_writeX_same, if_neg hr, if_neg hr, BitVec.toNat_ofNat, Register.width]
  | overflow | interruptEnabled | cycles => cases h

theorem perform_inspect_of_some {s : State} {r : Register} {v : Nat} (fuel : Nat) (h : s.inspect r = some v) :
    s.perform fuel (.inspect r) = .completed (.value v) s := by
  simp only [State.perform, h]

theorem perform_preset_of_some {s t : State} {r : Register} {v : Nat} (fuel : Nat) (h : s.preset v r = some t) :
    s.perform fuel (.preset r v) = .completed .done t := by
  simp only [State.perform, h]

end Sys2Proof.Machine

namespace Sys2Proof.Proofs

open Sys2Proof Sys2Proof.Machine

/-- Settles O14: every rule writes memory through `MemWrite` alone, which keeps the canonical form, and no rule writes
`interrupt_enabled`. -/
theorem everyStepKeepsTheInvariant : Obligations.EveryStepKeepsTheInvariant := by
  intro s t hs h
  obtain ⟨e, he, rfl⟩ := (step_next_iff_stepEffect s t).1 h
  exact stepEffect_inv he hs

/-- Settles O15: each command is a reset, a MemWrite, a register write or a number of steps. -/
theorem everyHostCommandKeepsTheInvariant : Obligations.EveryHostCommandKeepsTheInvariant := by
  intro s t fuel c r hs h
  exact perform_keeps (P := Inv) (fun _ _ => ⟨rfl, rfl⟩) (fun _ hs => ⟨hs.1, rfl⟩) (fun _ _ hs he => stepEffect_inv he hs)
    (fun _ _ _ hs => ⟨Memory.write_wf _ _ _ hs.1, hs.2⟩) (fun _ _ _ _ hs hp => preset_inv hp hs) hs h

/-- Settles O23: setting the flag is a change that no rule sees, through chains of any length. -/
theorem noInstructionReadsTheOverflowFlag : Obligations.NoInstructionReadsTheOverflowFlag :=
  fun _ _ _ h => unseen_setOverflow.exec h

/-- Settles O24: raising `cycles` is a change that no rule sees. -/
theorem noResultDependsOnTheCycleCount : Obligations.NoResultDependsOnTheCycleCount :=
  fun _ _ _ c h => (unseen_addToCycles c).exec h

/-- Settles O17: stickiness goes through every chain; the other clause is about the last word of the chain. -/
theorem overflowIsStickyAndWrittenByThreeInstructions : Obligations.OverflowIsStickyAndWrittenByThreeInstructions := by
  intro i s t h
  refine ⟨fun hs => ?_, fun n j u hc hj => ?_⟩
  · obtain ⟨e, he, rfl⟩ := (exec_next_iff i s t).1 h
    exact instrRule_overflow_sticky he hs
  · obtain ⟨p, v, c, hv, rfl⟩ := exec_chain_leaves h hc
    exact hv.overflow_eq hj

/-- Settles O18: no rule reads or writes the flag; of the commands, INIT and RESET alone write it, and they clear it. -/
theorem interruptEnabledIsNeverWritten : Obligations.InterruptEnabledIsNeverWritten := by
  refine ⟨fun i s t b h => ⟨?_, (unseen_interruptEnabled b).exec h⟩, fun s v => ⟨rfl, rfl, rfl, rfl⟩,
    fun s t fuel c r hs h => ?_⟩
  · obtain ⟨e, he, rfl⟩ := (exec_next_iff i s t).1 h
    exact instrRule_interruptEnabled he
  · exact perform_keeps (P := fun s => s.interruptEnabled = false) (fun _ _ => rfl) (fun _ _ => rfl)
      (fun _ _ hs he => (stepEffect_interruptEnabled he).trans hs) (fun _ _ _ hs => hs)
      (fun _ _ _ _ hs hp => (preset_frame hp).2.1.trans hs) hs h

/-- Settles O19: the last word of the chain leaves the state, and its opcode says which accumulators it writes. -/
theorem accumulatorsHaveTheirNamedWriters : Obligations.AccumulatorsHaveTheirNamedWriters := by
  intro i j s t u n h hc
  obtain ⟨p, v, c, hv, rfl⟩ := exec_chain_leaves h hc
  exact ⟨hv.a_eq, hv.b_eq⟩

/-- Settles O20: by the last word of the chain, met in a state whose index registers are those of `s`. -/
theorem indexRegistersHaveTheirNamedWriter : Obligations.IndexRegistersHaveTheirNamedWriter := by
  intro i j s t u n h hc
  obtain ⟨p, v, c, hv, rfl⟩ := exec_chain_leaves h hc
  refine ⟨rfl, fun hj r => ?_, fun _ r hr => ?_⟩
  · simpa using hv.readX_eq hj r
  · simpa using hv.readX_other r hr

/-- Settles O21: by the last word of the chain, whose effective address in `s` is the one it has where it is met. -/
theorem memoryHasItsNamedWriters : Obligations.MemoryHasItsNamedWriters := by
  intro i j s t u n h hc
  obtain ⟨p, v, c, hv, rfl⟩ := exec_chain_leaves h hc
  refine ⟨fun hj q => ?_, fun _ q hq => ?_⟩
  · simpa using hv.load_eq hj q
  · simpa using hv.load_other q (by simpa using hq)

/-- Settles O22: by the last word of the chain, an XEC among them if the limit stops it. -/
theorem haltedIsSetByHltAndDecodeErrorsOnly : Obligations.HaltedIsSetByHltAndDecodeErrorsOnly := by
  intro i j s t u n h hc
  obtain ⟨p, v, c, hv, rfl⟩ := exec_chain_leaves h hc
  refine ⟨hv.halted_sticky, fun hj => ?_, hv.diagLog_eq⟩
  exact hv.halted_eq (List.mem_cons_of_mem _ hj) fun h0 => absurd (h0 ▸ hj) (by decide)

/-- Settles O26: the step halts the machine, and a halted machine keeps its state. -/
theorem steppingAfterHltChangesNothing : Obligations.SteppingAfterHltChangesNothing := by
  intro s t f n hs hf h
  obtain ⟨hs', -⟩ | ⟨-, e, he, rfl⟩ := (step_next_iff s t).1 h
  · simp [hs] at hs'
  · rw [State.fetchWord] at hf
    rw [hf] at he
    obtain rfl : hltRule f s.advance = e := Option.some.inj he
    exact run_of_halted rfl n

/-- Settles O54: `step` and STEP both are the step's effect, charged, and no rule writes `cycles` itself. -/
theorem stepCommandReturnsTheCostItCharges : Obligations.StepCommandReturnsTheCostItCharges := by
  intro s fuel
  refine ⟨fun t => ?_, fun t c h => ?_, ?_⟩
  · simp only [step_next_iff_stepEffect, perform_step_completed_iff]
    exact ⟨fun ⟨e, he, ht⟩ => ⟨e.cost, e, he, rfl, ht⟩, fun ⟨_, e, he, _, ht⟩ => ⟨e, he, ht⟩⟩
  · obtain ⟨e, he, rfl, rfl⟩ := (perform_step_completed_iff s t fuel c).1 h
    rw [Charged, Effect.commit_cycles, stepEffect_cycles he]
  · rw [step_fault_iff_stepEffect, perform_step_stuck_iff]

/-- Settles O56: WRITE is one MemWrite at the reduced address. -/
theorem hostWriteThenRead : Obligations.HostWriteThenRead := by
  intro s p q w fuel hs
  refine ⟨s.hostWrite p w, rfl, rfl, ?_, rfl⟩
  rw [State.perform, hostRead_hostWrite s p q w hs]
  rfl

/-- Settles O57: a register of the first list has a PRESET that is not refused; those of the others are refused by their own cases. -/
theorem presetThenInspect : Obligations.PresetThenInspect := by
  refine ⟨fun s v fuel r width hr => ?_, fun s v fuel r hr => ?_, fun s fuel => ⟨fun rv hrv => ?_, rfl, rfl⟩⟩
  · obtain ⟨rfl, t, ht⟩ : r.width = width ∧ ∃ t, s.preset v r = some t := by
      simp only [List.mem_cons, Prod.mk.injEq, List.not_mem_nil, or_false] at hr
      rcases hr with ⟨rfl, rfl⟩ | ⟨rfl, rfl⟩ | ⟨rfl, rfl⟩ | ⟨rfl, rfl⟩ | ⟨rfl, rfl⟩ | ⟨rfl, rfl⟩ | ⟨rfl, rfl⟩ <;>
        exact ⟨rfl, _, rfl⟩
    exact ⟨t, perform_preset_of_some fuel ht, perform_inspect_of_some fuel (inspect_preset_same ht),
      fun q hq => inspect_preset_other ht hq, preset_frame ht⟩
  · simp only [List.mem_cons, List.not_mem_nil, or_false] at hr
    rcases hr with rfl | rfl | rfl | rfl <;> rfl
  · simp only [List.mem_cons, List.not_mem_nil, or_false] at hrv
    rcases hrv with rfl | rfl | rfl | rfl | rfl | rfl | rfl | rfl | rfl <;> rfl

/-- Settles O13: the reset state lists no word. -/
theorem resetStateMeetsTheInvariant : Obligations.ResetStateMeetsTheInvariant :=
  ⟨reset_memory_wf, rfl⟩

end Sys2Proof.Proofs

/-! PROOFS. The family 20_memory.md: the canonical form of the store, the accesses of a step and the words they write, a store to the next
word, and the image loader. -/

namespace Sys2Proof.Machine

open Sys2Proof

/-! ### Canonical memories -/

/-- The parts of the canonical form that the word listed first has. -/
theorem Memory.wfFrom_cons_iff {lo k : Nat} {w : Word} {m : Memory} :
    Memory.wfFrom lo ((k, w) :: m) = true ↔ lo ≤ k ∧ k < memWords ∧ w ≠ unlistedWord ∧ Memory.wfFrom (k + 1) m = true := by
  simp [Memory.wfFrom, and_assoc]

/-- The word listed first reads otherwise in a memory that lists higher addresses alone. -/
theorem Memory.lookup_head_ne {lo k : Nat} {w : Word} {m n : Memory} (hm : Memory.wfFrom lo ((k, w) :: m) = true)
    (hn : Memory.wfFrom (k + 1) n = true) : Memory.lookup ((k, w) :: m) k ≠ n.lookup k := by
  obtain ⟨-, -, hw, -⟩ := Memory.wfFrom_cons_iff.1 hm
  rw [Memory.lookup_below (Nat.lt_succ_self k) hn, Memory.lookup, if_pos rfl]
  exact hw

/-- Behind a first word of one address, two canonical lists that read the same go on with lists that read the same. -/
theorem Memory.lookup_tail_eq {k : Nat} {w v : Word} {m n : Memory} (hm : Memory.wfFrom (k + 1) m = true)
    (hn : Memory.wfFrom (k + 1) n = true) (h : ∀ a < memWords, Memory.lookup ((k, w) :: m) a = Memory.lookup ((k, v) :: n) a) :
    ∀ a < memWords, m.lookup a = n.lookup a := by
  intro a ha
  by_cases hk : k = a
  · subst hk
    rw [Memory.lookup_below (Nat.lt_succ_self k) hm, Memory.lookup_below (Nat.lt_succ_self k) hn]
  · simpa only [Memory.lookup, if_neg hk] using h a ha

/-- Canonical lists of cells that read the same at every address of the store are the same list. -/
theorem Memory.eq_of_lookup_eq : ∀ {lo : Nat} {m n : Memory}, Memory.wfFrom lo m = true → Memory.wfFrom lo n = true →
    (∀ a < memWords, m.lookup a = n.lookup a) → m = n
  | _, [], [], _, _, _ => rfl
  | _, [], (k, w) :: n, _, hn, h => by
    obtain ⟨-, hk, -, -⟩ := Memory.wfFrom_cons_iff.1 hn
    exact absurd (h k hk).symm (Memory.lookup_head_ne hn rfl)
  | _, (k, w) :: m, [], hm, _, h => by
    obtain ⟨-, hk, -, -⟩ := Memory.wfFrom_cons_iff.1 hm
    exact absurd (h k hk) (Memory.lookup_head_ne hm rfl)
  | _, (k, w) :: m, (l, v) :: n, hm, hn, h => by
    obtain ⟨-, hk, hw, hm'⟩ := Memory.wfFrom_cons_iff.1 hm
    obtain ⟨-, hl, hv, hn'⟩ := Memory.wfFrom_cons_iff.1 hn
    obtain hlt | rfl | hgt := Nat.lt_trichotomy k l
    · exact absurd (h k hk) (Memory.lookup_head_ne hm (Memory.wfFrom_cons_iff.2 ⟨hlt, hl, hv, hn'⟩))
    · have hwv : w = v := by simpa [Memory.lookup] using h k hk
      rw [hwv, Memory.eq_of_lookup_eq hm' hn' (Memory.lookup_tail_eq hm' hn' h)]
    · exact absurd (h l hl).symm (Memory.lookup_head_ne hn (Memory.wfFrom_cons_iff.2 ⟨hgt, hk, hw, hm'⟩))

/-- An address below 32768 is one that a 15-bit address names. -/
theorem Memory.lookup_eq_of_read_eq {m n : Memory} (h : ∀ a : Addr, m.read a = n.read a) :
    ∀ a < memWords, m.lookup a = n.lookup a := by
  intro a ha
  have hread := h (BitVec.ofNat 15 a)
  rwa [Memory.read, Memory.read, BitVec.toNat_ofNat, Nat.mod_eq_of_lt (show a < 2 ^ 15 from ha)] at hread

/-! ### The operand form says which opcodes write and which execute (R311) -/

/-- The opcodes that write memory (R111) are those with a memory destination. -/
theorem operandForm_eq_memoryDestination_iff (i : Instr) :
    operandForm i = .memoryDestination ↔ i.opcode ∈ [0o05#6, 0o03#6, 0o27#6, 0o66#6] := by
  cases i with
  | ldx f => by_cases hx : f.index = .x0 <;> simp [operandForm, Instr.opcode, hx]
  | _ => simp [operandForm, Instr.opcode]

/-- XEC alone executes the word at its effective address. -/
theorem operandForm_eq_executeTarget_iff (i : Instr) : operandForm i = .executeTarget ↔ i.opcode = 0o02#6 := by
  cases i with
  | ldx f => by_cases hx : f.index = .x0 <;> simp [operandForm, Instr.opcode, hx]
  | _ => simp [operandForm, Instr.opcode]

/-! ### The addresses that a list of accesses writes -/

/-- The addresses written, in order. -/
def writtenAddrs (l : List Access) : List Addr := l.filterMap Access.written

theorem mem_writtenAddrs {l : List Access} {a : Addr} : a ∈ writtenAddrs l ↔ ∃ x ∈ l, x.written = some a :=
  List.mem_filterMap

/-- The writes of a list, counted. -/
theorem countP_written (l : List Access) : l.countP (fun x => x.written.isSome) = (writtenAddrs l).length :=
  (List.length_filterMap_eq_countP ..).symm

theorem writtenAddrs_append (l r : List Access) : writtenAddrs (l ++ r) = writtenAddrs l ++ writtenAddrs r :=
  List.filterMap_append

/-- The instruction itself writes at its effective address, if its operand is a memory destination, and nowhere else. -/
theorem writtenAddrs_ownAccesses (fa : Addr) (i : Instr) (s : State) :
    writtenAddrs (ownAccesses fa i s) =
      if operandForm i = .memoryDestination then [effectiveAddress i.fields s] else [] := by
  have pointer : writtenAddrs (pointerAccess i.fields s) = [] := by
    rw [pointerAccess]
    split <;> rfl
  have operand : writtenAddrs (operandAccess i s) =
      if operandForm i = .memoryDestination then [effectiveAddress i.fields s] else [] := by
    rw [operandAccess]
    cases operandForm i <;> rfl
  calc writtenAddrs (ownAccesses fa i s)
      = writtenAddrs (pointerAccess i.fields s ++ operandAccess i s) := rfl
    _ = _ := by rw [writtenAddrs_append, pointer, operand, List.nil_append]

/-! ### The accesses of a chain -/

/-- An instruction that is no XEC has its own accesses alone. -/
theorem chainAccesses_plain (limit : Option DepthLimit) (s : State) (fuel depth : Nat) (fa : Addr)
    (h : (decode (s.load fa)).opcode ≠ 0o02#6) :
    chainAccesses limit s fuel depth fa = ownAccesses fa (decode (s.load fa)) s := by
  have hform : operandForm (decode (s.load fa)) ≠ .executeTarget := mt (operandForm_eq_executeTarget_iff _).1 h
  cases fuel with
  | zero => rfl
  | succ fuel =>
    rw [chainAccesses]
    split
    · next hx => exact absurd hx hform
    all_goals rfl

/-- An XEC writes nothing itself. -/
theorem writtenAddrs_ownAccesses_xec (fa : Addr) (f : Fields) (s : State) : writtenAddrs (ownAccesses fa (.xec f) s) = [] :=
  writtenAddrs_ownAccesses fa (.xec f) s

/-- An XEC that the limit stops has its own accesses alone. -/
theorem chainAccesses_xec_limit (limit : Option DepthLimit) (s : State) (fuel depth : Nat) (fa : Addr) (f : Fields)
    (h : decode (s.load fa) = .xec f) (hx : exceedsLimit limit depth = true) :
    chainAccesses limit s fuel depth fa = ownAccesses fa (.xec f) s := by
  cases fuel <;> simp [chainAccesses, h, hx, operandForm]

/-- Access (4) of R210: an XEC within the limit goes on with the accesses of the word it executes. -/
theorem chainAccesses_xec_succ (limit : Option DepthLimit) (s : State) (fuel depth : Nat) (fa : Addr) (f : Fields)
    (h : decode (s.load fa) = .xec f) (hx : exceedsLimit limit depth = false) :
    chainAccesses limit s (fuel + 1) depth fa =
      ownAccesses fa (.xec f) s ++ chainAccesses limit s fuel (depth + 1) (effectiveAddress f s) := by
  simp [chainAccesses, h, hx, operandForm, Instr.fields]

/-! ### A list of accesses accounts for what happens to memory -/

/-- The list writes at most one address, and `t` reads as `s` at every address it does not write. -/
structure AccountsFor (l : List Access) (s t : State) : Prop where
  atMostOne : (writtenAddrs l).length ≤ 1
  unwritten : ∀ a, a ∉ writtenAddrs l → t.load a = s.load a

/-- Only the addresses written matter. -/
theorem AccountsFor.of_writtenAddrs_eq {l r : List Access} {s t : State} (h : AccountsFor l s t)
    (hlr : writtenAddrs r = writtenAddrs l) : AccountsFor r s t :=
  ⟨hlr ▸ h.atMostOne, hlr ▸ h.unwritten⟩

/-- A list without writes accounts for a memory that reads as before. -/
theorem AccountsFor.of_sameWords {l : List Access} {s t : State} (hl : writtenAddrs l = []) (h : SameWords s t) :
    AccountsFor l s t :=
  ⟨by simp [hl], fun a _ => h a⟩

/-- An instruction's own accesses account for every state it leaves as the last word of a chain: an instruction without a memory
destination changes no word, and the others change the one at `ea`. -/
theorem Leaves.accountsFor {i : Instr} {s t : State} (h : Leaves i s t) (fa : Addr) : AccountsFor (ownAccesses fa i s) s t := by
  have written := writtenAddrs_ownAccesses fa i s
  by_cases hform : operandForm i = .memoryDestination
  · rw [if_pos hform] at written
    exact ⟨by simp [written], fun a ha => h.load_other a (by simpa [written] using ha)⟩
  · rw [if_neg hform] at written
    exact .of_sameWords written (h.load_eq (mt (operandForm_eq_memoryDestination_iff i).2 hform))

/-- The accesses of an instruction do not depend on `PC`. -/
theorem ownAccesses_setPc (fa p : Addr) (i : Instr) (s : State) : ownAccesses fa i (s.setPc p) = ownAccesses fa i s := by
  have indexed : indexedAddress i.fields (s.setPc p) = indexedAddress i.fields s := by simp [indexedAddress]
  simp [ownAccesses, pointerAccess, operandAccess, indexed]

/-- The accesses of an instruction that is no XEC account for its rule, whatever `PC` is where it runs. -/
theorem accountsFor_ownAccesses {x : Fields → State → Option Effect} {i : Instr} {s : State} {p : Addr} {e : Effect} (fa : Addr)
    (hi : i.opcode ≠ 0o02#6) (h : ruleOf x i (s.setPc p) = some e) : AccountsFor (ownAccesses fa i s) s e.state := by
  obtain ⟨one, unwritten⟩ := (leaves_of_ruleOf hi h).accountsFor fa
  rw [ownAccesses_setPc] at one unwritten
  exact ⟨one, unwritten⟩

/-- The accesses of a chain from the word at `fa` account for the effect of that word's rule, whatever `PC` is: the XECs of the chain write
nothing and hand on the same store and index registers, so its last word alone counts. -/
theorem accountsFor_chainAccesses {limit : Option DepthLimit} {s : State} (fuel : Nat) {depth : Nat} {fa p : Addr} {e : Effect}
    (h : ruleOf (nestedXec limit fuel depth) (decode (s.load fa)) (s.setPc p) = some e) :
    AccountsFor (chainAccesses limit s fuel depth fa) s e.state := by
  obtain ⟨f, hf⟩ | hplain := xec_or_not (decode (s.load fa))
  · rw [hf] at h
    replace h : nestedXec limit fuel depth f (s.setPc p) = some e := h
    cases hx : exceedsLimit limit depth with
    | true =>
      rw [nestedXec_limit _ _ _ _ _ hx] at h
      obtain rfl : xecLimitRule (s.setPc p) = e := Option.some.inj h
      rw [chainAccesses_xec_limit _ _ _ _ _ _ hf hx]
      exact .of_sameWords (writtenAddrs_ownAccesses_xec fa f s) fun a => rfl
    | false =>
      cases fuel with
      | zero => simp [nestedXec, hx] at h
      | succ fuel =>
        rw [nestedXec_succ _ _ _ _ _ hx, executeTarget_eq, effectiveAddress_setPc, Option.map_eq_some_iff] at h
        obtain ⟨e', he', rfl⟩ := h
        have target : AccountsFor (chainAccesses limit s fuel (depth + 1) (effectiveAddress f s)) s e'.state :=
          accountsFor_chainAccesses fuel he'
        refine target.of_writtenAddrs_eq ?_
        rw [chainAccesses_xec_succ _ _ _ _ _ _ hf hx, writtenAddrs_append, writtenAddrs_ownAccesses_xec, List.nil_append]
  · rw [chainAccesses_plain _ _ _ _ _ hplain]
    exact accountsFor_ownAccesses fa hplain h
termination_by fuel

/-- The accesses of a step account for it. -/
theorem accountsFor_stepAccesses {s t : State} (h : step s = .next t) : AccountsFor (stepAccesses s) s t := by
  obtain ⟨hs, rfl⟩ | ⟨hs, e, he, rfl⟩ := (step_next_iff s t).1 h
  · exact .of_sameWords (by simp [stepAccesses, hs, writtenAddrs]) fun a => rfl
  · rw [instrRule, ruleOf_xecRule] at he
    obtain ⟨one, unwritten⟩ := accountsFor_chainAccesses _ he
    rw [stepAccesses, hs]
    exact ⟨one, unwritten⟩

/-! ### The image loader (R220) -/

/-- Three bytes of an image make a word, the first the most significant. -/
theorem wordOfBytes_toNat (b0 b1 b2 : Byte) : (wordOfBytes b0 b1 b2).toNat = b0.toNat * 65536 + b1.toNat * 256 + b2.toNat := by
  have h1 := b1.isLt
  have h2 := b2.isLt
  have low : (b1 ++ b2).toNat = b1.toNat * 256 + b2.toNat := by
    rw [BitVec.toNat_append, ← Nat.shiftLeft_add_eq_or_of_lt h2, Nat.shiftLeft_eq]
  have all : (b0 ++ (b1 ++ b2)).toNat = b0.toNat * 65536 + (b1 ++ b2).toNat := by
    rw [BitVec.toNat_append, ← Nat.shiftLeft_add_eq_or_of_lt (b1 ++ b2).isLt, Nat.shiftLeft_eq]
  rw [wordOfBytes, all, low, Nat.add_assoc]

/-- An image's word `n` is made of bytes `3n`, `3n + 1` and `3n + 2`, and an image that ends before them has none (decision D11). -/
theorem imageWords_getElem? : ∀ (image : List Byte) (n : Nat),
    (imageWords image)[n]? =
      if 3 * n + 2 < image.length then
        some (wordOfBytes (image.getD (3 * n) 0#8) (image.getD (3 * n + 1) 0#8) (image.getD (3 * n + 2) 0#8))
      else none
  | [], n | [_], n | [_, _], n => by simp [imageWords]
  | b0 :: b1 :: b2 :: rest, 0 => by simp [imageWords]
  | b0 :: b1 :: b2 :: rest, n + 1 => by
    have hlen : 3 * (n + 1) + 2 < (b0 :: b1 :: b2 :: rest).length ↔ 3 * n + 2 < rest.length := by
      simp only [List.length_cons]
      omega
    rw [imageWords, List.getElem?_cons_succ, imageWords_getElem? rest n, if_congr hlen rfl rfl]
    simp [Nat.mul_add]

/-- The loader writes nothing but memory. -/
theorem loadFrom_frame (ws : List Word) : ∀ (s : State) (n : Nat), s.loadFrom n ws = { s with memory := (s.loadFrom n ws).memory } := by
  induction ws with
  | nil => exact fun s n => rfl
  | cons w ws ih =>
    intro s n
    rw [State.loadFrom]
    split
    · rw [ih]
      rfl
    · rfl

/-- One WRITE of the loader. -/
theorem load_hostWrite_word {s : State} {n k : Nat} (w : Word) (hs : s.memory.wf = true) (hn : n < memWords) (hk : k < memWords) :
    (s.hostWrite n w.toNat).load (hostAddr k) = if k = n then w else s.load (hostAddr k) := by
  have h := hostRead_hostWrite s n k w.toNat hs
  rwa [Nat.mod_eq_of_lt (show k < 32768 from hk), Nat.mod_eq_of_lt (show n < 32768 from hn), BitVec.ofNat_toNat,
    BitVec.setWidth_eq] at h

/-- The loader leaves the words before its first one. -/
theorem load_loadFrom_below {k : Nat} (hk : k < memWords) (ws : List Word) :
    ∀ {s : State} {n : Nat}, s.memory.wf = true → k < n → (s.loadFrom n ws).load (hostAddr k) = s.load (hostAddr k) := by
  induction ws with
  | nil => exact fun _ _ => rfl
  | cons w ws ih =>
    intro s n hs hkn
    rw [State.loadFrom]
    split
    · next hn =>
      rw [ih (Memory.write_wf _ _ _ hs) (Nat.lt_succ_of_lt hkn), load_hostWrite_word w hs hn hk, if_neg hkn.ne]
    · rfl

/-- Loading at `n` puts the listed word `k` at `n + k`, and leaves the word there if none is listed. -/
theorem load_loadFrom_add (ws : List Word) : ∀ {s : State} {n k : Nat}, s.memory.wf = true → n + k < memWords →
    (s.loadFrom n ws).load (hostAddr (n + k)) = ws[k]?.getD (s.load (hostAddr (n + k))) := by
  induction ws with
  | nil => exact fun _ _ => rfl
  | cons w ws ih =>
    intro s n k hs hk
    have hn : n < memWords := by omega
    have hs' : (s.hostWrite n w.toNat).memory.wf = true := Memory.write_wf _ _ _ hs
    rw [State.loadFrom, if_pos hn]
    cases k with
    | zero => rw [load_loadFrom_below hk ws hs' (Nat.lt_succ_self n), load_hostWrite_word w hs hn hk, if_pos (Nat.add_zero n)]; rfl
    | succ k =>
      rw [show n + (k + 1) = n + 1 + k by omega] at hk ⊢
      rw [ih hs' hk, load_hostWrite_word w hs hn hk, if_neg (by omega), List.getElem?_cons_succ]

/-- Word `n` after loading an image: the image's, or the one before where the image has none. -/
theorem load_loadImage {s : State} {n : Nat} (image : List Byte) (hs : s.memory.wf = true) (hn : n < memWords) :
    (s.loadImage image).load (hostAddr n) = (imageWords image)[n]?.getD (s.load (hostAddr n)) := by
  simpa [State.loadImage] using load_loadFrom_add (n := 0) (k := n) (imageWords image) hs (by omega)

end Sys2Proof.Machine

namespace Sys2Proof.Proofs

open Sys2Proof Sys2Proof.Machine

/-- Settles O10: the access list accounts for the step, by the last word of its chain. -/
theorem stepChangesOnlyTheWordItsAccessesWrite : Obligations.StepChangesOnlyTheWordItsAccessesWrite := by
  intro s t h
  obtain ⟨one, unwritten⟩ := accountsFor_stepAccesses h
  refine ⟨(countP_written _).trans_le one, fun a ha => unwritten a fun hmem => ?_⟩
  obtain ⟨x, hx, hxa⟩ := mem_writtenAddrs.1 hmem
  exact ha x hx hxa

/-- Settles O8: canonical lists are compared cell by cell, lowest address first. -/
theorem canonicalMemoriesWithEqualReadsAreEqual : Obligations.CanonicalMemoriesWithEqualReadsAreEqual :=
  fun _ _ hm hn h => Memory.eq_of_lookup_eq hm hn (Memory.lookup_eq_of_read_eq h)

/-- Settles O11: STA leaves `PC` alone, so the next fetch reads the word it stored. -/
theorem storedWordIsFetchedNext : Obligations.StoredWordIsFetchedNext := by
  intro f s hs hea
  refine ⟨(staRule f s).commit, rfl, ?_⟩
  calc (staRule f s).commit.fetchWord
      = (s.store (effectiveAddress f s) s.a).load s.pc := rfl
    _ = s.a := by rw [hea, s.load_store_same _ _ hs]

/-- Settles O58: word `n` of the image goes to address `n` by one WRITE, and no later WRITE of the loader reaches it. -/
theorem loaderPlacesBigEndianWords : Obligations.LoaderPlacesBigEndianWords := by
  intro s image hs
  refine ⟨loadFrom_frame _ s 0, fun n hn => ⟨fun hlen => ?_, fun hlen => ?_⟩⟩
  · rw [← hostAddr, load_loadImage image hs hn, imageWords_getElem?, if_pos hlen, Option.getD_some, wordOfBytes_toNat]
  · rw [← hostAddr, load_loadImage image hs hn, imageWords_getElem?, if_neg hlen.not_gt, Option.getD_none]

end Sys2Proof.Proofs

/-! PROOFS. The family 30_encoding.md: the decoder and the encoder undo each other, raw instruction lines, the effective address, and the
unimplemented opcodes. -/

namespace Sys2Proof

open Laws

/-! ### The opcode and its two octal digits (R320) -/

/-- The three bits of an octal digit. -/
def OctalDigit.bits : OctalDigit → BitVec 3
  | .d0 => 0o0#3
  | .d1 => 0o1#3
  | .d2 => 0o2#3
  | .d3 => 0o3#3
  | .d4 => 0o4#3
  | .d5 => 0o5#3
  | .d6 => 0o6#3
  | .d7 => 0o7#3

/-- The digit that three bits make has those bits. -/
theorem bits_octalDigit : ∀ x : BitVec 3, (octalDigit (x.getLsbD 2) (x.getLsbD 1) (x.getLsbD 0)).bits = x := by decide

theorem bits_opcodeHigh (w : Word) : (opcodeHigh w).bits = w.extractLsb' 21 3 := by
  simpa [opcodeHigh] using bits_octalDigit (w.extractLsb' 21 3)

theorem bits_opcodeLow (w : Word) : (opcodeLow w).bits = w.extractLsb' 18 3 := by
  simpa [opcodeLow] using bits_octalDigit (w.extractLsb' 18 3)

/-- The instruction in row `high`, column `low` of the opcode map has the opcode of those two digits. -/
theorem opcode_instrOfOpcode (high low : OctalDigit) (f : Fields) : (instrOfOpcode high low f).opcode = high.bits ++ low.bits := by
  cases high <;> cases low <;> rfl

/-- An instruction stands in the opcode map where its own opcode says. -/
theorem instrOfOpcode_opcode (i : Instr) :
    instrOfOpcode (octalDigit (i.opcode.getLsbD 5) (i.opcode.getLsbD 4) (i.opcode.getLsbD 3))
      (octalDigit (i.opcode.getLsbD 2) (i.opcode.getLsbD 1) (i.opcode.getLsbD 0)) i.fields = i := by
  cases i <;> simp [Instr.opcode, octalDigit, instrOfOpcode, Instr.fields]

theorem opcodeHigh_encode (i : Instr) :
    opcodeHigh (encode i) = octalDigit (i.opcode.getLsbD 5) (i.opcode.getLsbD 4) (i.opcode.getLsbD 3) := by
  simp only [opcodeHigh, getLsbD_encode]
  rfl

theorem opcodeLow_encode (i : Instr) :
    opcodeLow (encode i) = octalDigit (i.opcode.getLsbD 2) (i.opcode.getLsbD 1) (i.opcode.getLsbD 0) := by
  simp only [opcodeLow, getLsbD_encode]
  rfl

/-! ### The fields (R300) -/

theorem bits_indexOfBits : ∀ x : BitVec 2, (indexOfBits (x.getLsbD 1) (x.getLsbD 0)).bits = x := by decide

theorem bits_index_decodeFields (w : Word) : (decodeFields w).index.bits = w.extractLsb' 15 2 := by
  simpa [decodeFields] using bits_indexOfBits (w.extractLsb' 15 2)

/-- A selector's number is its two bits, read as a number. -/
theorem IndexReg.number_eq_toNat_bits (r : IndexReg) : r.number = r.bits.toNat := by
  cases r <;> rfl

theorem decodeFields_encode (i : Instr) : decodeFields (encode i) = i.fields := by
  have indirect : (encode i).getLsbD 17 = i.fields.indirect := by
    simp only [getLsbD_encode, getLsbD_encodeFields]
    exact BitVec.getLsbD_ofBool ..
  have index : indexOfBits ((encode i).getLsbD 16) ((encode i).getLsbD 15) = i.fields.index := by
    simp only [getLsbD_encode, getLsbD_encodeFields]
    exact indexOfBits_bits i.fields.index
  have addr : (encode i).extractLsb' 0 15 = i.fields.addr := by
    apply BitVec.eq_of_getLsbD_eq
    intro k hk
    rw [BitVec.getLsbD_extractLsb', Nat.zero_add, getLsbD_encode, if_pos (by omega), getLsbD_encodeFields, if_pos hk, decide_eq_true hk,
      Bool.true_and]
  rw [decodeFields, indirect, index, addr]

theorem encodeFields_decodeFields (w : Word) : encodeFields (decodeFields w) = w.extractLsb' 0 18 := by
  have indirect : BitVec.ofBool (decodeFields w).indirect = w.extractLsb' 17 1 := by
    apply BitVec.eq_of_getLsbD_eq
    simp [decodeFields]
  calc encodeFields (decodeFields w)
      = w.extractLsb' 17 1 ++ (w.extractLsb' 15 2 ++ w.extractLsb' 0 15) := by
        rw [encodeFields, indirect, bits_index_decodeFields]
        rfl
    _ = w.extractLsb' 17 1 ++ w.extractLsb' 0 17 := congrArg _ (BitVec.extractLsb'_append_extractLsb'_eq_extractLsb' rfl)
    _ = w.extractLsb' 0 18 := BitVec.extractLsb'_append_extractLsb'_eq_extractLsb' rfl

/-! ### The two round trips -/

theorem opcode_decode (w : Word) : (decode w).opcode = w.extractLsb' 18 6 := by
  rw [decode, opcode_instrOfOpcode, bits_opcodeHigh, bits_opcodeLow]
  exact BitVec.extractLsb'_append_extractLsb'_eq_extractLsb' rfl

theorem fields_decode (w : Word) : (decode w).fields = decodeFields w :=
  fields_instrOfOpcode ..

theorem decode_encode (i : Instr) : decode (encode i) = i := by
  rw [decode, opcodeHigh_encode, opcodeLow_encode, decodeFields_encode, instrOfOpcode_opcode]

theorem encode_decode (w : Word) : encode (decode w) = w := by
  rw [encode, opcode_decode, fields_decode, encodeFields_decodeFields]
  calc w.extractLsb' 18 6 ++ w.extractLsb' 0 18
      = w.extractLsb' 0 24 := BitVec.extractLsb'_append_extractLsb'_eq_extractLsb' rfl
    _ = w := BitVec.extractLsb'_eq_self

/-! ### Raw instruction lines (R330) -/

theorem RawInstr.check_eq_none_iff (r : RawInstr) :
    r.check = none ↔ r.op < 64 ∧ r.indirect < 2 ∧ r.index < 4 ∧ r.addr < 32768 := by
  unfold RawInstr.check
  split_ifs <;> simp <;> omega

/-- Four numbers that fit their fields make a number of 24 bits. -/
theorem RawInstr.value_lt {r : RawInstr} (h : r.check = none) : r.value < 2 ^ 24 := by
  obtain ⟨hop, hindirect, hindex, haddr⟩ := r.check_eq_none_iff.1 h
  rw [RawInstr.value]
  omega

theorem RawInstr.toInstr_of_check_eq_none {r : RawInstr} (h : r.check = none) :
    r.toInstr = .ok (decode (BitVec.ofNat 24 r.value)) := by
  simp only [RawInstr.toInstr, h]

theorem RawInstr.toInstr_of_check_eq_some {r : RawInstr} {why : IllFormed} (h : r.check = some why) : r.toInstr = .error why := by
  simp only [RawInstr.toInstr, h]

end Sys2Proof

namespace Sys2Proof.Machine

open Sys2Proof

/-! ### The effective address (R310) -/

/-- The address part of a word is the word modulo 32768: bits 23..15 are ignored. -/
theorem toNat_addressPart (w : Word) : (addressPart w).toNat = w.toNat % 32768 := by
  simp [addressPart]

theorem indexedAddress_of_index_eq_x0 {f : Fields} (s : State) (h : f.index = .x0) : indexedAddress f s = f.addr := by
  simp [indexedAddress, h]

theorem toNat_indexedAddress (f : Fields) (s : State) :
    (indexedAddress f s).toNat = (f.addr.toNat + (s.readX f.index).toNat) % 32768 :=
  BitVec.toNat_add ..

theorem effectiveAddress_of_direct {f : Fields} (s : State) (h : f.indirect = false) :
    effectiveAddress f s = indexedAddress f s := by
  simp [effectiveAddress, h]

theorem effectiveAddress_of_indirect {f : Fields} (s : State) (h : f.indirect = true) :
    effectiveAddress f s = addressPart (s.load (indexedAddress f s)) := by
  simp [effectiveAddress, h]

/-! ### The unimplemented opcodes (R321, R404) -/

/-- The 36 opcode values of R321. -/
def unimplementedOpcodes : List Opcode :=
  [0o01#6, 0o04#6, 0o06#6, 0o07#6, 0o14#6, 0o20#6, 0o21#6, 0o22#6, 0o25#6, 0o26#6, 0o30#6, 0o31#6, 0o32#6, 0o33#6, 0o36#6, 0o37#6,
    0o42#6, 0o43#6, 0o44#6, 0o45#6, 0o46#6, 0o47#6, 0o50#6, 0o51#6, 0o52#6, 0o53#6, 0o54#6, 0o60#6, 0o61#6, 0o62#6, 0o63#6, 0o64#6,
    0o65#6, 0o67#6, 0o75#6, 0o76#6]

/-- The rule of an unimplemented opcode is the decode error, whatever the other fields are. -/
theorem ruleOf_of_unimplemented {i : Instr} (x : Fields → State → Option Effect) (s : State)
    (h : i.opcode ∈ unimplementedOpcodes) : ruleOf x i s = some (s.decodeError i.opcode) := by
  cases i with
  | hlt | xec | stb | sta | add | sub | skg | skn | ana | ora | era | ldb | lda | jsl | mpy | div | ars | als | tab | ldx | iab | six
  | jpl | jze | jmi | jnz | jmp | nop => simp [unimplementedOpcodes, Instr.opcode] at h
  | _ => rfl

theorem exec_of_unimplemented {i : Instr} (s : State) (h : i.opcode ∈ unimplementedOpcodes) :
    exec i s = .next (s.decodeError i.opcode).commit :=
  (exec_next_iff i s _).2 ⟨_, ruleOf_of_unimplemented _ s h, rfl⟩

end Sys2Proof.Machine

namespace Sys2Proof.Proofs

open Sys2Proof Sys2Proof.Machine

/-- Settles O4: the two octal digits and the three fields of the encoded word are read back one by one. -/
theorem decodeOfEncodeIsIdentity : Obligations.DecodeOfEncodeIsIdentity :=
  fun i _ => decode_encode i

/-- Settles O5: the opcode and the fields of the decoded instruction are adjacent slices of the word. -/
theorem encodeOfDecodeIsIdentity : Obligations.EncodeOfDecodeIsIdentity :=
  encode_decode

/-- Settles O6: each field is a slice of the word, read as a number. -/
theorem decodeReadsTheFourFields : Obligations.DecodeReadsTheFourFields := by
  intro w
  rw [opcode_decode, fields_decode, IndexReg.number_eq_toNat_bits, bits_index_decodeFields]
  refine ⟨?_, ?_, ?_, ?_⟩
  · have hw := w.isLt
    rw [BitVec.extractLsb'_toNat, Nat.shiftRight_eq_div_pow]
    omega
  · simp [decodeFields, BitVec.getLsbD, Nat.testBit_eq_decide_div_mod_eq]
  · rw [BitVec.extractLsb'_toNat, Nat.shiftRight_eq_div_pow]
  · exact BitVec.extractLsb'_toNat ..

/-- Settles O7: a line that passes the check decodes from its own number, which encoding gives back (O5). -/
theorem rawInstructionsAreCheckedAndEncoded : Obligations.RawInstructionsAreCheckedAndEncoded := by
  intro r
  refine ⟨fun fits => ?_, fun tooWide => ?_⟩
  · have accepted : r.check = none := r.check_eq_none_iff.2 fits
    refine ⟨_, RawInstr.toInstr_of_check_eq_none accepted, Laws.wellFormed_all _, ?_⟩
    rw [encode_decode, BitVec.toNat_ofNat, Nat.mod_eq_of_lt (RawInstr.value_lt accepted), RawInstr.value]
  · have refused : r.check ≠ none := fun accepted => by
      obtain ⟨hop, hindirect, hindex, haddr⟩ := r.check_eq_none_iff.1 accepted
      omega
    obtain ⟨why, hwhy⟩ := Option.ne_none_iff_exists'.1 refused
    exact ⟨why, RawInstr.toInstr_of_check_eq_some hwhy⟩

/-- Settles O28: each of the 36 runs the decode error with its own opcode, charged. -/
theorem unimplementedOpcodeIsADecodeError : Obligations.UnimplementedOpcodeIsADecodeError := by
  intro f s i hi
  have unimplemented : i.opcode ∈ unimplementedOpcodes := List.mem_map_of_mem hi
  refine ⟨_, exec_of_unimplemented s unimplemented, ?_⟩
  simp [SameIndex, SameWords, Charged]

/-- Settles O9: by the two cases of indexing and the two of indirection. -/
theorem effectiveAddressIndexesThenIndirects : Obligations.EffectiveAddressIndexesThenIndirects := by
  intro f s
  refine ⟨indexedAddress_of_index_eq_x0 s, fun _ => toNat_indexedAddress f s, effectiveAddress_of_direct s, fun h => ?_⟩
  rw [effectiveAddress_of_indirect s h, toNat_addressPart]

end Sys2Proof.Proofs

/-! PROOFS. The family 40_execution.md: the step, HLT and NOP, and the loop of RUN. -/

namespace Sys2Proof.Machine

open Sys2Proof

/-! ### The step, HLT and NOP (R400, R420, R421) -/

theorem step_of_halted {s : State} (h : s.halted = true) : step s = .next s :=
  (step_next_iff s s).2 (.inl ⟨h, rfl⟩)

theorem step_of_running {s : State} (h : s.halted = false) : step s = exec (decode s.fetchWord) s.advance := by
  simp [step, h]

theorem stepEffect_of_halted {s : State} (h : s.halted = true) : stepEffect s = some ⟨s, 0⟩ :=
  (stepEffect_eq_some_iff s _).2 (.inl ⟨h, rfl⟩)

theorem exec_hlt (f : Fields) (s : State) : exec (.hlt f) s = .next (((s.setHalted true).setPc (s.pc - 1#15)).addCycles 5) := rfl

theorem exec_nop (f : Fields) (s : State) : exec (.nop f) s = .next (s.addCycles 5) := rfl

/-- One address back, modulo 32768. -/
theorem toNat_sub_one (p : Addr) : (p - 1#15).toNat = (p.toNat + 32767) % 32768 := by
  rw [BitVec.toNat_sub, Nat.add_comm]
  rfl

/-! ### STEPs in a row

`StepsCost` adds a STEP at the end, the loop of RUN makes one at the start: the two views of one more step. -/

/-- A STEP made before the others. -/
theorem StepsCost.cons {s t : State} {e : Effect} {n total : Nat} (he : stepEffect s = some e) (h : StepsCost e.commit n total t) :
    StepsCost s (n + 1) (e.cost + total) t := by
  induction h with
  | start =>
    have hstep : s.perform 0 .step = .completed (.cost e.cost) e.commit := (perform_step_completed_iff ..).2 ⟨e, he, rfl, rfl⟩
    simpa using StepsCost.more 0 0 e.cost s e.commit .start hstep
  | more n total c u t _ hlast ih =>
    rw [← Nat.add_assoc]
    exact .more (n + 1) (e.cost + total) c u t ih hlast

/-- The first of the STEPs, and the others from the state it leads to. -/
theorem StepsCost.uncons {s t : State} {n total : Nat} (h : StepsCost s (n + 1) total t) :
    ∃ (e : Effect) (rest : Nat), stepEffect s = some e ∧ total = e.cost + rest ∧ StepsCost e.commit n rest t := by
  induction n generalizing total t with
  | zero =>
    obtain _ | ⟨_, _, _, _, _, hbefore, hlast⟩ := h
    obtain _ | _ := hbefore
    obtain ⟨e, he, rfl, rfl⟩ := (perform_step_completed_iff ..).1 hlast
    exact ⟨e, 0, he, Nat.add_comm .., .start⟩
  | succ n ih =>
    obtain _ | ⟨_, _, c, u, _, hbefore, hlast⟩ := h
    obtain ⟨e, rest, he, rfl, hrest⟩ := ih hbefore
    exact ⟨e, rest + c, he, Nat.add_assoc .., .more n rest c u t hrest hlast⟩

theorem stepsCost_zero_iff {s t : State} {total : Nat} : StepsCost s 0 total t ↔ total = 0 ∧ t = s := by
  constructor
  · rintro ⟨⟩
    exact ⟨rfl, rfl⟩
  · rintro ⟨rfl, rfl⟩
    exact .start

/-- What the STEPs return is what `cycles` grows by, modulo 2^64 (R402). -/
theorem StepsCost.cycles_eq {s t : State} {n total : Nat} (h : StepsCost s n total t) :
    t.cycles = s.cycles + BitVec.ofNat 64 total := by
  induction h with
  | start => simp
  | more n total c u t _ hlast ih =>
    obtain ⟨e, he, rfl, rfl⟩ := (perform_step_completed_iff ..).1 hlast
    rw [Effect.commit_cycles, stepEffect_cycles he, ih, BitVec.ofNat_add, BitVec.add_assoc]

/-- STEPs in a row are a run of the core. -/
theorem StepsCost.core_run {s t : State} {n total : Nat} (h : StepsCost s n total t) : Sys2Proof.core.run n s = .next t := by
  induction n generalizing s total with
  | zero =>
    obtain ⟨-, rfl⟩ := stepsCost_zero_iff.1 h
    rfl
  | succ n ih =>
    obtain ⟨e, rest, he, -, hrest⟩ := h.uncons
    have hstep : Sys2Proof.core.step s = .next e.commit := (step_next_iff_stepEffect s _).2 ⟨e, he, rfl⟩
    rw [run_succ_next _ _ _ _ hstep, ih hrest]

/-! ### The loop of RUN (R410) -/

theorem runGoesOn_iff (budget : BitVec 64) (total : Nat) (s : State) :
    runGoesOn budget.toNat total s = true ↔ BudgetAllows budget total s := by
  simp [runGoesOn, BudgetAllows, ← BitVec.toNat_inj]

/-- Where the loop's test fails, the machine has halted or a budget other than 0 is met. -/
theorem not_budgetAllows_iff (budget : BitVec 64) (total : Nat) (s : State) :
    ¬ BudgetAllows budget total s ↔ s.halted = true ∨ budget ≠ 0#64 ∧ budget.toNat ≤ total := by
  rw [BudgetAllows, not_and_or, not_or, Nat.not_lt, Bool.not_eq_false]

/-- The loop, with `acc` already accumulated, makes exactly the `n` STEPs from `s` to `t`, at costs that sum to `rest`: its test holds
before each of them and fails after the last. -/
def LoopMakes (budget : BitVec 64) (acc : Nat) (s : State) (n rest : Nat) (t : State) : Prop :=
  StepsCost s n rest t ∧ ¬ BudgetAllows budget (acc + rest) t ∧
    ∀ (k c : Nat) (u : State), k < n → StepsCost s k c u → BudgetAllows budget (acc + c) u

section LoopMakes

variable {budget : BitVec 64} {acc n rest : Nat} {s t : State}

theorem loopMakes_zero_iff : LoopMakes budget acc s 0 rest t ↔ ¬ BudgetAllows budget acc s ∧ rest = 0 ∧ t = s := by
  rw [LoopMakes, stepsCost_zero_iff]
  constructor
  · rintro ⟨⟨rfl, rfl⟩, hstop, -⟩
    exact ⟨hstop, rfl, rfl⟩
  · rintro ⟨hstop, rfl, rfl⟩
    exact ⟨⟨rfl, rfl⟩, hstop, fun k _ _ hk => absurd hk k.not_lt_zero⟩

theorem loopMakes_succ_iff :
    LoopMakes budget acc s (n + 1) rest t ↔ BudgetAllows budget acc s ∧
      ∃ (e : Effect) (rest' : Nat), stepEffect s = some e ∧ rest = e.cost + rest' ∧
        LoopMakes budget (acc + e.cost) e.commit n rest' t := by
  constructor
  · rintro ⟨hsteps, hstop, htests⟩
    obtain ⟨e, rest', he, rfl, hsteps'⟩ := hsteps.uncons
    refine ⟨htests 0 0 s n.succ_pos .start, e, rest', he, rfl, hsteps', ?_, fun k c u hk hu => ?_⟩
    · rwa [Nat.add_assoc]
    · rw [Nat.add_assoc]
      exact htests (k + 1) (e.cost + c) u (Nat.succ_lt_succ hk) (.cons he hu)
  · rintro ⟨hfirst, e, rest', he, rfl, hsteps, hstop, htests⟩
    refine ⟨.cons he hsteps, ?_, fun k c u hk hu => ?_⟩
    · rwa [← Nat.add_assoc]
    · cases k with
      | zero =>
        obtain ⟨rfl, rfl⟩ := stepsCost_zero_iff.1 hu
        exact hfirst
      | succ k =>
        obtain ⟨e', c', he', rfl, hu'⟩ := hu.uncons
        obtain rfl : e = e' := Option.some.inj (he.symm.trans he')
        rw [← Nat.add_assoc]
        exact htests k c' u (Nat.lt_of_succ_lt_succ hk) hu'

end LoopMakes

/-- Where the test fails the loop makes no step, whatever the fuel. -/
theorem runLoop_of_stop {budget : BitVec 64} {acc : Nat} {s : State} (fuel : Nat) (h : ¬ BudgetAllows budget acc s) :
    runLoop budget.toNat fuel acc s = .finished acc s := by
  cases fuel <;> simp [runLoop, runGoesOn_iff, h]

theorem runLoop_zero_of_go {budget : BitVec 64} {acc : Nat} {s : State} (h : BudgetAllows budget acc s) :
    runLoop budget.toNat 0 acc s = .outOfFuel := by
  simp [runLoop, runGoesOn_iff, h]

/-- Where the test holds, a loop that finishes makes one step and goes on from there. -/
theorem runLoop_succ_finished_iff {budget : BitVec 64} {acc total : Nat} {s t : State} (fuel : Nat) (h : BudgetAllows budget acc s) :
    runLoop budget.toNat (fuel + 1) acc s = .finished total t ↔
      ∃ e : Effect, stepEffect s = some e ∧ runLoop budget.toNat fuel (acc + e.cost) e.commit = .finished total t := by
  rw [runLoop, if_pos ((runGoesOn_iff ..).2 h)]
  cases stepEffect s <;> simp

/-- A loop that finishes has made some number of STEPs within its fuel. -/
theorem loopMakes_of_runLoop {budget : BitVec 64} {fuel acc total : Nat} {s t : State}
    (h : runLoop budget.toNat fuel acc s = .finished total t) :
    ∃ n rest : Nat, n ≤ fuel ∧ total = acc + rest ∧ LoopMakes budget acc s n rest t := by
  induction fuel generalizing acc s with
  | zero =>
    by_cases go : BudgetAllows budget acc s
    · rw [runLoop_zero_of_go go] at h
      cases h
    · rw [runLoop_of_stop 0 go] at h
      cases h
      exact ⟨0, 0, le_rfl, rfl, loopMakes_zero_iff.2 ⟨go, rfl, rfl⟩⟩
  | succ fuel ih =>
    by_cases go : BudgetAllows budget acc s
    · obtain ⟨e, he, hrest⟩ := (runLoop_succ_finished_iff fuel go).1 h
      obtain ⟨n, rest, hn, rfl, hmakes⟩ := ih hrest
      exact ⟨n + 1, e.cost + rest, Nat.succ_le_succ hn, Nat.add_assoc .., loopMakes_succ_iff.2 ⟨go, e, rest, he, rfl, hmakes⟩⟩
    · rw [runLoop_of_stop (fuel + 1) go] at h
      cases h
      exact ⟨0, 0, Nat.zero_le _, rfl, loopMakes_zero_iff.2 ⟨go, rfl, rfl⟩⟩

/-- The loop finishes after the STEPs it makes, whatever fuel covers them. -/
theorem LoopMakes.runLoop_eq {budget : BitVec 64} {fuel acc n rest : Nat} {s t : State} (h : LoopMakes budget acc s n rest t)
    (hn : n ≤ fuel) : runLoop budget.toNat fuel acc s = .finished (acc + rest) t := by
  induction n generalizing fuel acc s rest with
  | zero =>
    obtain ⟨hstop, rfl, rfl⟩ := loopMakes_zero_iff.1 h
    exact runLoop_of_stop fuel hstop
  | succ n ih =>
    obtain ⟨go, e, rest', he, rfl, hrest⟩ := loopMakes_succ_iff.1 h
    obtain ⟨fuel, rfl⟩ := Nat.exists_eq_add_one_of_ne_zero (Nat.ne_zero_of_lt hn)
    rw [← Nat.add_assoc, runLoop_succ_finished_iff fuel go]
    exact ⟨e, he, ih hrest (Nat.le_of_succ_le_succ hn)⟩

/-- RUN finishes exactly if the loop, with nothing accumulated, makes some number of STEPs within the fuel. -/
theorem run_finished_iff (s t : State) (fuel total : Nat) (budget : BitVec 64) :
    s.run fuel budget = .finished total t ↔ ∃ n : Nat, n ≤ fuel ∧ LoopMakes budget 0 s n total t := by
  constructor
  · intro h
    obtain ⟨n, rest, hn, rfl, hmakes⟩ := loopMakes_of_runLoop h
    exact ⟨n, hn, by rwa [Nat.zero_add]⟩
  · rintro ⟨n, hn, hmakes⟩
    simpa [State.run] using hmakes.runLoop_eq hn

/-- A machine that is not halted makes a step under every budget. -/
theorem budgetAllows_of_running {s : State} (budget : BitVec 64) (h : s.halted = false) : BudgetAllows budget 0 s := by
  by_cases hb : budget = 0#64
  · exact ⟨h, .inl hb⟩
  · exact ⟨h, .inr (Nat.pos_of_ne_zero fun hzero => hb (BitVec.eq_of_toNat_eq hzero))⟩

/-- RUN of a halted machine makes no step (R411). -/
theorem LoopMakes.of_halted {budget : BitVec 64} {acc n rest : Nat} {s t : State} (h : LoopMakes budget acc s n rest t)
    (hs : s.halted = true) : rest = 0 ∧ t = s := by
  cases n with
  | zero => exact (loopMakes_zero_iff.1 h).2
  | succ n =>
    obtain ⟨⟨running, -⟩, -⟩ := loopMakes_succ_iff.1 h
    simp [hs] at running

/-- RUN of a machine that is not halted makes a first step, whatever the budget, and is a run of the core from there. -/
theorem LoopMakes.of_running {budget : BitVec 64} {n rest : Nat} {s t : State} (h : LoopMakes budget 0 s n rest t)
    (hs : s.halted = false) : ∃ (u : State) (m : Nat), step s = .next u ∧ Sys2Proof.core.run m u = .next t := by
  cases n with
  | zero => exact absurd (budgetAllows_of_running budget hs) (loopMakes_zero_iff.1 h).1
  | succ n =>
    obtain ⟨-, e, rest', he, -, hsteps, -⟩ := loopMakes_succ_iff.1 h
    exact ⟨e.commit, n, (step_next_iff_stepEffect s _).2 ⟨e, he, rfl⟩, hsteps.core_run⟩

end Sys2Proof.Machine

namespace Sys2Proof.Proofs

open Sys2Proof Sys2Proof.Machine

/-- Settles O55: the loop makes its STEPs one by one from the front, its test before each, and what it makes does not depend on the
fuel beyond them. -/
theorem runStopsAtHaltOrBudgetWithItsTotal : Obligations.RunStopsAtHaltOrBudgetWithItsTotal := by
  intro s t fuel total budget
  refine ⟨?_, fun h => ?_⟩
  · simp only [run_finished_iff, LoopMakes, Nat.zero_add]
  · obtain ⟨n, hn, hmakes⟩ := (run_finished_iff ..).1 h
    have ⟨hsteps, hstop, _⟩ := hmakes
    rw [Nat.zero_add] at hstop
    exact ⟨(not_budgetAllows_iff ..).1 hstop, hsteps.cycles_eq,
      fun more => (run_finished_iff ..).2 ⟨n, Nat.le_add_right_of_le hn, hmakes⟩, hmakes.of_halted, hmakes.of_running⟩

/-- Settles O1: `advance` moves `PC` alone, and the cost is charged by `exec`. -/
theorem stepRunsTheDecodedInstruction : Obligations.StepRunsTheDecodedInstruction := by
  intro s i running _ hi
  rw [step_of_running running, State.fetchWord, hi, State.advance, State.setPc]

/-- Settles O2: `step` and STEP are both the effect of the step, which while halted is none at cost 0. -/
theorem haltedStepDoesNothing : Obligations.HaltedStepDoesNothing := by
  intro s fuel halted
  refine ⟨step_of_halted halted, (perform_step_completed_iff ..).2 ⟨_, stepEffect_of_halted halted, rfl, ?_⟩⟩
  exact Effect.commit_zero s

/-- Settles O25: `PC` goes one back, which undoes the increment of the fetch. -/
theorem hltHaltsAtItsOwnAddress : Obligations.HltHaltsAtItsOwnAddress := by
  intro f s
  refine ⟨_, exec_hlt f s, rfl, toNat_sub_one s.pc, fun fa hfa => ?_, ?_⟩
  · simp [hfa]
  · simp [SameIndex, SameWords, Charged]

/-- Settles O27: the state of a NOP is the one it met, charged. -/
theorem nopChangesOnlyTheCycleCount : Obligations.NopChangesOnlyTheCycleCount := by
  intro f s
  refine ⟨_, exec_nop f s, ?_⟩
  simp [SameButRegisters, SameWords, SameIndex, SameControl, Charged]

end Sys2Proof.Proofs


/-! PROOFS. The family 41_load_store.md: LDA, LDB, STA, STB. -/

namespace Sys2Proof.Machine

open Sys2Proof

/-! ### The four instructions as state changes (R430 to R433) -/

theorem exec_lda (f : Fields) (s : State) : exec (.lda f) s = .next ((s.setA (s.load (effectiveAddress f s))).addCycles 10) := rfl

theorem exec_ldb (f : Fields) (s : State) : exec (.ldb f) s = .next ((s.setB (s.load (effectiveAddress f s))).addCycles 10) := rfl

theorem exec_sta (f : Fields) (s : State) : exec (.sta f) s = .next ((s.store (effectiveAddress f s) s.a).addCycles 10) := rfl

theorem exec_stb (f : Fields) (s : State) : exec (.stb f) s = .next ((s.store (effectiveAddress f s) s.b).addCycles 10) := rfl

/-! ### What writing one accumulator, or one word, leaves -/

theorem sameButRegisters_setA (s : State) (v : Word) (c : Nat) : SameButRegisters c s ((s.setA v).addCycles c) := by
  simp [SameButRegisters, SameWords, SameIndex, SameControl, Charged]

theorem sameButRegisters_setB (s : State) (v : Word) (c : Nat) : SameButRegisters c s ((s.setB v).addCycles c) := by
  simp [SameButRegisters, SameWords, SameIndex, SameControl, Charged]

theorem sameButWord_store (s : State) (here : Addr) (v : Word) (c : Nat) :
    SameButWord here c s ((s.store here v).addCycles c) := by
  have others : SameWordsBut here s ((s.store here v).addCycles c) := fun q hq => s.load_store_other here q v hq
  exact ⟨others, by simp [SameIndex, SameControl, Charged]⟩

/-- An instruction that does nothing but one store, and is charged for it, completes as a store; the word reads back where memory is
canonical. -/
theorem completesAsStore_of_exec_eq {i : Instr} {s : State} {here : Addr} {v : Word} {c : Nat} (hs : s.memory.wf = true)
    (h : exec i s = .next ((s.store here v).addCycles c)) : CompletesAsStore i here v s.pc c s :=
  ⟨_, h, s.load_store_same here v hs, rfl, sameButWord_store s here v c⟩

end Sys2Proof.Machine

namespace Sys2Proof.Proofs

open Sys2Proof Sys2Proof.Machine

/-- Settles O29: the only field a load writes beside `cycles` is its accumulator. -/
theorem loadsCopyTheWholeWord : Obligations.LoadsCopyTheWholeWord := by
  intro f s
  constructor
  · exact ⟨_, exec_lda f s, rfl, rfl, rfl, rfl, sameButRegisters_setA ..⟩
  · exact ⟨_, exec_ldb f s, rfl, rfl, rfl, rfl, sameButRegisters_setB ..⟩

/-- Settles O30: each of the two is one store of its accumulator, charged 10. -/
theorem storesWriteTheWholeWordAtTheEffectiveAddress : Obligations.StoresWriteTheWholeWordAtTheEffectiveAddress :=
  fun f s hs => ⟨completesAsStore_of_exec_eq hs (exec_sta f s), completesAsStore_of_exec_eq hs (exec_stb f s)⟩

end Sys2Proof.Proofs


/-! PROOFS. The family 42_add_sub_logic.md: ADD, SUB, ANA, ORA, ERA. -/

namespace Sys2Proof.Machine

open Sys2Proof

/-! ### The five instructions as state changes (R450 to R455) -/

theorem exec_add (f : Fields) (s : State) :
    exec (.add f) s = .next ((s.takeSum (toSigned s.a + toSigned (operandM f s))).addCycles 10) := rfl

theorem exec_sub (f : Fields) (s : State) :
    exec (.sub f) s = .next ((s.takeSum (toSigned s.a - toSigned (operandM f s))).addCycles 10) := rfl

theorem exec_ana (f : Fields) (s : State) : exec (.ana f) s = .next ((s.setA (s.a &&& operandM f s)).addCycles 10) := rfl

theorem exec_ora (f : Fields) (s : State) : exec (.ora f) s = .next ((s.setA (s.a ||| operandM f s)).addCycles 10) := rfl

theorem exec_era (f : Fields) (s : State) : exec (.era f) s = .next ((s.setA (s.a ^^^ operandM f s)).addCycles 10) := rfl

/-! ### The zero results and −0 (R12, R14) -/

@[simp] theorem fromSigned_zero : fromSigned 0 = 0#24 := by decide

/-- −0 is the only word with the sign bit set and no magnitude. -/
theorem eq_minusZero_iff (w : Word) : w = 0o40000000#24 ↔ sgn w = true ∧ mag w = 0#23 := by
  constructor
  · rintro rfl
    decide
  · rintro ⟨hs, hm⟩
    exact word_ext (hs.trans (by decide)) (hm.trans (by decide))

/-- A word that is not −0 is rebuilt by `smw` as it was (R13). -/
theorem smw_sgn_mag {w : Word} (h : w ≠ 0o40000000#24) : smw (sgn w) (mag w) = w := by
  have nonzero : sgn w = true → mag w ≠ 0#23 := fun hs hm => h ((eq_minusZero_iff w).2 ⟨hs, hm⟩)
  have sign : (sgn w && decide (mag w ≠ 0#23)) = sgn w := by
    simpa using nonzero
  rw [smw, sign, signMag_sgn_mag]

/-- Reading a word as a number and writing the number back changes −0 alone, to +0 (R14). -/
theorem fromSigned_toSigned_eq_ite (w : Word) :
    fromSigned (toSigned w) = if w = 0o40000000#24 then 0#24 else w := by
  split
  case isTrue h => subst h; decide
  case isFalse h => rw [fromSigned_toSigned, smw_sgn_mag h]

/-- The value of a word is in range (R11). -/
theorem natAbs_toSigned_le (w : Word) : (toSigned w).natAbs ≤ 8388607 := by
  rw [natAbs_toSigned]
  exact Nat.le_of_lt_succ (mag_lt w)

/-! ### What taking an exact result leaves -/

section TakeSum

variable (s : State) (v : Int)

@[simp] theorem State.takeSum_a : (s.takeSum v).a = fromSigned v := rfl

theorem State.takeSum_overflow_iff : (s.takeSum v).overflow = true ↔ s.overflow = true ∨ 8388607 < v.natAbs := by
  simp [State.takeSum_eq]

/-- A result in range leaves `overflow` as it was (R452). -/
theorem State.takeSum_overflow_of_inRange {v : Int} (h : v.natAbs ≤ 8388607) : (s.takeSum v).overflow = s.overflow := by
  rw [Bool.eq_iff_iff, State.takeSum_overflow_iff, or_iff_left (Nat.not_lt.2 h)]

theorem sameButRegisters_takeSum (c : Nat) : SameButRegisters c s ((s.takeSum v).addCycles c) := by
  simp [State.takeSum, SameButRegisters, SameWords, SameIndex, SameControl, Charged]

/-- `i` completes from `s` by taking the exact result `v` into `A`, at a cost of 10: what R450 and R451 say of ADD and SUB alike. -/
def CompletesAsSum (i : Instr) (v : Int) (s : State) : Prop :=
  ∃ t : State, exec i s = .next t ∧
    (t.overflow = true ↔ s.overflow = true ∨ 8388607 < v.natAbs) ∧
    (v.natAbs ≤ 8388607 → toSigned t.a = v ∧ (v = 0 → t.a = 0#24)) ∧
    t.b = s.b ∧ t.pc = s.pc ∧ SameButRegisters 10 s t

variable {s v}

theorem completesAsSum_of_exec_eq {i : Instr} (h : exec i s = .next ((s.takeSum v).addCycles 10)) : CompletesAsSum i v s := by
  refine ⟨_, h, s.takeSum_overflow_iff v, fun inRange => ⟨toSigned_fromSigned v inRange, ?_⟩, rfl, rfl,
    sameButRegisters_takeSum s v 10⟩
  rintro rfl
  exact fromSigned_zero

end TakeSum

/-- An ADD whose sum is in range puts it in `A` and leaves `overflow` as it was (R450, R452). -/
theorem exec_add_inRange {f : Fields} {s t : State} (inRange : (toSigned s.a + toSigned (operandM f s)).natAbs ≤ 8388607)
    (h : exec (.add f) s = .next t) : toSigned t.a = toSigned s.a + toSigned (operandM f s) ∧ t.overflow = s.overflow := by
  rw [exec_add] at h
  cases h
  exact ⟨toSigned_fromSigned _ inRange, s.takeSum_overflow_of_inRange inRange⟩

/-- An instruction that does nothing but write `A`, and is charged for it, completes in `A`. -/
theorem completesInA_of_exec_eq {i : Instr} {s : State} {v : Word} {c : Nat} {result : Word → Prop}
    (h : exec i s = .next ((s.setA v).addCycles c)) (hv : result v) : CompletesInA i result c s :=
  ⟨_, h, hv, rfl, rfl, rfl, sameButRegisters_setA s v c⟩

end Sys2Proof.Machine

namespace Sys2Proof.Proofs

open Sys2Proof Sys2Proof.Machine

/-- Settles O31: ADD takes the exact sum. -/
theorem addGivesTheSignedSumInRange : Obligations.AddGivesTheSignedSumInRange := by
  rintro f s _ rfl
  exact completesAsSum_of_exec_eq (exec_add f s)

/-- Settles O32: SUB takes the exact difference. -/
theorem subGivesTheSignedDifferenceInRange : Obligations.SubGivesTheSignedDifferenceInRange := by
  rintro f s _ rfl
  exact completesAsSum_of_exec_eq (exec_sub f s)

/-- Settles O34: the ADD left the exact sum in `A`, so the exact difference that the SUB takes is the value of the old `A`, which is in
range; only the sign of a −0 does not survive the way through its value. -/
theorem addThenSubRestoresA : Obligations.AddThenSubRestoresA := by
  intro f g s t inRange hadd sameOperand
  obtain ⟨sum, overflowKept⟩ := exec_add_inRange inRange hadd
  have difference : toSigned t.a - toSigned (operandM g t) = toSigned s.a := by
    rw [sameOperand, sum, Int.add_sub_cancel]
  have hsub := exec_sub g t
  rw [difference] at hsub
  have oldInRange := natAbs_toSigned_le s.a
  exact ⟨_, hsub, (t.takeSum_overflow_of_inRange oldInRange).trans overflowKept, toSigned_fromSigned _ oldInRange,
    fromSigned_toSigned_eq_ite s.a⟩

/-- Settles O35: each of the three writes the bitwise result to `A` and nothing else. -/
theorem logicalOperationsActOnEveryBit : Obligations.LogicalOperationsActOnEveryBit := by
  intro f s
  exact ⟨completesInA_of_exec_eq (exec_ana f s) fun _ => BitVec.getLsbD_and,
    completesInA_of_exec_eq (exec_ora f s) fun _ => BitVec.getLsbD_or,
    completesInA_of_exec_eq (exec_era f s) fun _ => BitVec.getLsbD_xor⟩

end Sys2Proof.Proofs


/-! PROOFS. The family 43_multiply_divide.md: MPY, DIV, and the one after the other. -/

namespace Sys2Proof.Machine

open Sys2Proof

/-! ### The two instructions as state changes (R470 to R472) -/

theorem exec_mpy (f : Fields) (s : State) :
    exec (.mpy f) s =
      .next (((s.setA (product s.b (operandM f s)).1).setB (product s.b (operandM f s)).2).addCycles 28) := rfl

/-- After an MPY the pair `A:B` is the product, and `overflow` is as it was. -/
theorem exec_mpy_next {f : Fields} {s t : State} (h : exec (.mpy f) s = .next t) :
    t.a = (product s.b (operandM f s)).1 ∧ t.b = (product s.b (operandM f s)).2 ∧ t.overflow = s.overflow := by
  rw [exec_mpy] at h
  cases h
  simp

/-- A proper DIV: the remainder to `A`, the quotient to `B`. -/
theorem exec_div_eq_of_proper {f : Fields} {s : State} (h : (mag s.a).toNat < (mag (operandM f s)).toNat) :
    exec (.div f) s =
      .next (((s.setA (remainder s.a s.b (operandM f s))).setB (quotient s.a s.b (operandM f s))).addCycles 44) := by
  rw [← divRule_state_of_proper h]
  rfl

/-- An improper DIV writes `overflow` alone. -/
theorem exec_div_eq_of_improper {f : Fields} {s : State} (h : (mag (operandM f s)).toNat ≤ (mag s.a).toNat) :
    exec (.div f) s = .next ((s.orOverflow true).addCycles 44) := by
  have improper : divideImproper s.a (operandM f s) = true := decide_eq_true h
  have state : (divRule f s).state = s.orOverflow true := if_pos improper
  rw [← state]
  rfl

theorem sameButRegisters_setA_setB (s : State) (v w : Word) (c : Nat) :
    SameButRegisters c s (((s.setA v).setB w).addCycles c) := by
  simp [SameButRegisters, SameWords, SameIndex, SameControl, Charged]

theorem sameButRegisters_orOverflow (s : State) (o : Bool) (c : Nat) :
    SameButRegisters c s ((s.orOverflow o).addCycles c) := by
  simp [SameButRegisters, SameWords, SameIndex, SameControl, Charged]

/-! ### Signs that only a nonzero magnitude shows (R13) -/

/-- A zero is +0, whatever sign was asked for. -/
@[simp] theorem smw_zero (s : Bool) : smw s 0#23 = 0#24 := by
  cases s <;> decide

/-- The sign shows on a nonzero magnitude only. -/
theorem sgn_smw_iff (s : Bool) (m : Magnitude) : sgn (smw s m) = true ↔ (mag (smw s m)).toNat ≠ 0 ∧ s = true := by
  have nonzero : m ≠ 0#23 ↔ m.toNat ≠ 0 := BitVec.toNat_ne_iff_ne.symm
  simp [nonzero, and_comm]

/-- Only −0 is not rebuilt from its sign and magnitude: it becomes +0. -/
theorem smw_sgn_mag_eq_ite (w : Word) : smw (sgn w) (mag w) = if w = 0o40000000#24 then 0#24 else w := by
  rw [← fromSigned_toSigned, fromSigned_toSigned_eq_ite]

/-- The quotient is negative exactly if it is nonzero and the signs of dividend and divisor differ (R471). -/
theorem sgn_quotient_iff (a b m : Word) :
    sgn (quotient a b m) = true ↔ (mag (quotient a b m)).toNat ≠ 0 ∧ (sgn a ^^ sgn m) = true :=
  sgn_smw_iff _ _

/-- The remainder is negative exactly if it is nonzero and the dividend is negative (R471). -/
theorem sgn_remainder_iff (a b m : Word) :
    sgn (remainder a b m) = true ↔ (mag (remainder a b m)).toNat ≠ 0 ∧ sgn a = true :=
  sgn_smw_iff _ _

/-! ### The product (R470) -/

/-- A nonzero product has the same sign in both halves. -/
theorem sgn_product {b m : Word} (h : (mag b).toNat * (mag m).toNat ≠ 0) :
    sgn (product b m).1 = (sgn b ^^ sgn m) ∧ sgn (product b m).2 = (sgn b ^^ sgn m) := by
  have sign : (decide ((mag b).toNat * (mag m).toNat ≠ 0) && (sgn b ^^ sgn m)) = (sgn b ^^ sgn m) := by
    rw [decide_eq_true h, Bool.true_and]
  exact ⟨(sgn_signMag _ _).trans sign, (sgn_signMag _ _).trans sign⟩

/-- A zero product is +0 in both halves, whatever the signs of the factors. -/
theorem product_eq_zero {b m : Word} (h : (mag b).toNat * (mag m).toNat = 0) : product b m = (0#24, 0#24) := by
  simp only [product, h, ne_eq, not_true_eq_false, decide_false, Bool.false_and]
  rfl

/-- The product, read as a dividend, is the exact product of the magnitudes. -/
theorem dividend_product (b m : Word) : dividend (product b m).1 (product b m).2 = (mag b).toNat * (mag m).toNat :=
  product_mag b m

/-- A product by a nonzero `m` is small enough to be divided by `m` again (R473): its high half is below `m`. -/
theorem mag_product_fst_lt (b : Word) {m : Word} (h : 0 < (mag m).toNat) :
    (mag (product b m).1).toNat < (mag m).toNat := by
  have highHalf : (mag (product b m).1).toNat * 8388608 < (mag m).toNat * 8388608 :=
    calc (mag (product b m).1).toNat * 8388608
        ≤ (mag b).toNat * (mag m).toNat := product_mag b m ▸ Nat.le_add_right _ _
      _ < 8388608 * (mag m).toNat := Nat.mul_lt_mul_of_pos_right (mag_lt b) h
      _ = (mag m).toNat * 8388608 := Nat.mul_comm _ _
  exact Nat.lt_of_mul_lt_mul_right highHalf

/-! ### Dividing the product (R473) -/

/-- The product of `b` and `m` leaves no remainder by `m`. -/
theorem remainder_product (b m : Word) : remainder (product b m).1 (product b m).2 m = 0#24 := by
  rw [remainder, dividend_product, Nat.mul_mod_left]
  exact smw_zero _

/-- The quotient of the product of `b` and `m` by `m` is `b`, rebuilt from its sign and magnitude: where `b` is not zero the sign of `m`
goes in twice and cancels. -/
theorem quotient_product (b : Word) {m : Word} (h : 0 < (mag m).toNat) :
    quotient (product b m).1 (product b m).2 m = smw (sgn b) (mag b) := by
  rw [quotient, dividend_product, Nat.mul_div_cancel _ h, BitVec.ofNat_toNat, BitVec.setWidth_eq]
  by_cases zero : mag b = 0#23
  case pos => rw [zero, smw_zero, smw_zero]
  case neg =>
    have magNonzero : (mag b).toNat ≠ 0 := BitVec.toNat_ne_iff_ne.2 zero
    have signA := (sgn_product (Nat.mul_ne_zero magNonzero h.ne')).1
    rw [signA, Bool.xor_assoc, Bool.xor_self, Bool.xor_false]

end Sys2Proof.Machine

namespace Sys2Proof.Proofs

open Sys2Proof Sys2Proof.Machine

/-- Settles O36: MPY writes the two halves of the exact product and nothing else. -/
theorem mpyGivesTheExactProduct : Obligations.MpyGivesTheExactProduct := by
  intro f s
  refine ⟨_, exec_mpy f s, product_mag _ _, sgn_product, fun zero => ?_, rfl, rfl, sameButRegisters_setA_setB ..⟩
  exact Prod.ext_iff.1 (product_eq_zero zero)

/-- Settles O37, by whether the divide is proper (R472). -/
theorem divGivesQuotientAndRemainderOrSetsOverflow : Obligations.DivGivesQuotientAndRemainderOrSetsOverflow := by
  rintro f s _ rfl
  rcases Nat.lt_or_ge (mag s.a).toNat (mag (operandM f s)).toNat with proper | improper
  · refine ⟨_, exec_div_eq_of_proper proper, rfl, sameButRegisters_setA_setB ..,
      fun improper => absurd proper (Nat.not_lt.2 improper), fun _ => ?_⟩
    exact ⟨rfl, mag_quotient s.b proper, mag_remainder s.a s.b (Nat.zero_lt_of_lt proper), sgn_quotient_iff _ _ _, sgn_remainder_iff _ _ _⟩
  · refine ⟨_, exec_div_eq_of_improper improper, rfl, sameButRegisters_orOverflow ..,
      fun _ => ?_, fun proper => absurd proper (Nat.not_lt.2 improper)⟩
    exact ⟨Bool.or_true _, rfl, rfl⟩

/-- Settles O39: the product's high half is below the divisor, so the DIV is proper, and it divides the exact product. -/
theorem mpyThenDivRecoversB : Obligations.MpyThenDivRecoversB := by
  intro f g s t nonzero hmpy sameOperand
  have positive := Nat.pos_of_ne_zero nonzero
  obtain ⟨productA, productB, overflowKept⟩ := exec_mpy_next hmpy
  have proper : (mag t.a).toNat < (mag (operandM g t)).toNat := by
    rw [productA, sameOperand]
    exact mag_product_fst_lt s.b positive
  refine ⟨_, exec_div_eq_of_proper proper, overflowKept, ?_, ?_⟩
  · show remainder t.a t.b (operandM g t) = 0#24
    rw [productA, productB, sameOperand, remainder_product]
  · show quotient t.a t.b (operandM g t) = _
    rw [productA, productB, sameOperand, quotient_product s.b positive, smw_sgn_mag_eq_ite]

end Sys2Proof.Proofs


/-! PROOFS. The family 44_control_transfer.md: JMP, JPL, JMI, JZE, JNZ, JSL, SKG, SKN. -/

namespace Sys2Proof.Machine

open Sys2Proof

/-! ### The eight instructions as state changes (R500 to R507)

A skip is a conditional jump one word on (`State.skipIf_eq_jumpIf`). -/

theorem exec_jmp (f : Fields) (s : State) : exec (.jmp f) s = .next ((s.jumpIf true (effectiveAddress f s)).addCycles 5) := rfl

theorem exec_jpl (f : Fields) (s : State) :
    exec (.jpl f) s = .next ((s.jumpIf (isPlus s.a) (effectiveAddress f s)).addCycles 6) := rfl

theorem exec_jmi (f : Fields) (s : State) :
    exec (.jmi f) s = .next ((s.jumpIf (isMinus s.a) (effectiveAddress f s)).addCycles 6) := rfl

theorem exec_jze (f : Fields) (s : State) :
    exec (.jze f) s = .next ((s.jumpIf (isZero s.a) (effectiveAddress f s)).addCycles 6) := rfl

theorem exec_jnz (f : Fields) (s : State) :
    exec (.jnz f) s = .next ((s.jumpIf (!isZero s.a) (effectiveAddress f s)).addCycles 6) := rfl

theorem exec_jsl (f : Fields) (s : State) :
    exec (.jsl f) s =
      .next (((s.store (effectiveAddress f s) (wordOfAddr s.pc)).setPc (effectiveAddress f s + 1#15)).addCycles 10) := rfl

theorem exec_skg (f : Fields) (s : State) :
    exec (.skg f) s = .next ((s.jumpIf (signedGreater s.a (operandM f s)) (s.pc + 1#15)).addCycles 10) := rfl

theorem exec_skn (f : Fields) (s : State) :
    exec (.skn f) s = .next ((s.jumpIf (wordsDiffer s.a (operandM f s)) (s.pc + 1#15)).addCycles 10) := rfl

/-! ### The conditions on `A`, by its value (R501, R503) -/

/-- Both zeros have the value 0, and no other word has. -/
theorem isZero_eq_decide (w : Word) : isZero w = decide (toSigned w = 0) := by
  rw [isZero, decide_eq_decide]
  exact (toSigned_eq_zero w).symm

/-- A word with the sign bit set has no positive value; without it, its value is its magnitude. -/
theorem toSigned_pos_iff (w : Word) : 0 < toSigned w ↔ sgn w = false ∧ toSigned w ≠ 0 := by
  cases hs : sgn w with
  | false => simp [toSigned, hs, Nat.pos_iff_ne_zero]
  | true => simp [toSigned, hs]

theorem isPlus_eq_decide (w : Word) : isPlus w = decide (0 < toSigned w) := by
  rw [Bool.eq_iff_iff, isPlus, isZero_eq_decide, decide_eq_true_iff, toSigned_pos_iff]
  simp

/-! ### What a jump leaves -/

/-- A conditional jump writes `PC`, with its old value where it is not taken. -/
theorem State.jumpIf_eq_setPc (s : State) (c : Bool) (target : Addr) :
    s.jumpIf c target = s.setPc (if c then target else s.pc) := by
  cases c <;> rfl

theorem sameButRegisters_setPc (s : State) (p : Addr) (c : Nat) : SameButRegisters c s ((s.setPc p).addCycles c) := by
  simp [SameButRegisters, SameWords, SameIndex, SameControl, Charged]

/-- An instruction that does nothing but jump where a condition holds, and is charged for it, completes as a jump. -/
theorem completesAsJump_of_exec_eq {i : Instr} {taken : Bool} {target : Addr} {c : Nat} {s : State}
    (h : exec i s = .next ((s.jumpIf taken target).addCycles c)) : CompletesAsJump i taken target c s := by
  rw [State.jumpIf_eq_setPc] at h
  exact ⟨_, h, rfl, rfl, rfl, rfl, sameButRegisters_setPc ..⟩

/-! ### The link word (R505) -/

/-- The frame of a store does not speak of `PC`. -/
theorem sameButWord_store_setPc (s : State) (here : Addr) (v : Word) (p : Addr) (c : Nat) :
    SameButWord here c s (((s.store here v).setPc p).addCycles c) :=
  sameButWord_store s here v c

/-- After a JSL from a canonical memory the word at its `ea` is the link word. -/
theorem load_of_exec_jsl {f : Fields} {s t : State} (hs : s.memory.wf = true) (h : exec (.jsl f) s = .next t) :
    t.load (effectiveAddress f s) = wordOfAddr s.pc := by
  rw [exec_jsl] at h
  cases h
  exact s.load_store_same _ _ hs

/-- The effective address through a pointer at `p`, without indexing, is that pointer's address part (R310). -/
theorem effectiveAddress_pointer (p : Addr) (s : State) : effectiveAddress ⟨true, .x0, p⟩ s = addressPart (s.load p) := by
  rw [effectiveAddress_of_indirect s rfl, indexedAddress_of_index_eq_x0 s rfl]

end Sys2Proof.Machine

namespace Sys2Proof.Proofs

open Sys2Proof Sys2Proof.Machine

/-- Settles O40: each of the five is a conditional jump to `ea`, and each test on sign and magnitude is the stated one on the value. -/
theorem jumpsTestTheConditionTheyName : Obligations.JumpsTestTheConditionTheyName := by
  intro f s
  have hjpl := exec_jpl f s
  have hjze := exec_jze f s
  have hjnz := exec_jnz f s
  rw [isPlus_eq_decide] at hjpl
  rw [isZero_eq_decide] at hjze hjnz
  rw [← decide_not] at hjnz
  exact ⟨completesAsJump_of_exec_eq (exec_jmp f s), completesAsJump_of_exec_eq hjpl, completesAsJump_of_exec_eq (exec_jmi f s),
    completesAsJump_of_exec_eq hjze, completesAsJump_of_exec_eq hjnz⟩

/-- Settles O43: a skip is a conditional jump one word on, and the two tests are the stated comparisons by definition. -/
theorem skipsCompareAsTheirRulesSay : Obligations.SkipsCompareAsTheirRulesSay :=
  fun f s => ⟨completesAsJump_of_exec_eq (exec_skg f s), completesAsJump_of_exec_eq (exec_skn f s)⟩

/-- Settles O41: JSL is one store, of the link word, and one write of `PC`. -/
theorem jslStoresTheReturnAddressAndJumpsPastIt : Obligations.JslStoresTheReturnAddressAndJumpsPastIt := by
  intro f s hs
  rw [← wordOfAddr_eq]
  exact ⟨_, exec_jsl f s, s.load_store_same _ _ hs, rfl, sameButWord_store_setPc ..⟩

/-- Settles O42: the pointer that the JMP follows is the link word, whose address part is the `PC` that the JSL stored. -/
theorem jslThenIndirectJumpReturns : Obligations.JslThenIndirectJumpReturns := by
  intro f s t u hs hjsl hkept
  have returned : effectiveAddress ⟨true, .x0, effectiveAddress f s⟩ u = s.pc := by
    rw [effectiveAddress_pointer, hkept, load_of_exec_jsl hs hjsl, addressPart_wordOfAddr]
  exact ⟨_, exec_jmp _ u, returned⟩

end Sys2Proof.Proofs


/-! PROOFS. The family 45_register_transfer.md: TAB, IAB, LDX, SIX. -/

namespace Sys2Proof.Machine

open Sys2Proof

/-! ### The four instructions as state changes (R530 to R533) -/

theorem exec_tab (f : Fields) (s : State) : exec (.tab f) s = .next ((s.setB s.a).addCycles 5) := rfl

theorem exec_iab (f : Fields) (s : State) : exec (.iab f) s = .next (((s.setA s.b).setB s.a).addCycles 10) := rfl

theorem exec_ldx (f : Fields) (s : State) :
    exec (.ldx f) s = .next ((s.writeX f.index (addressPart (operandM f s))).addCycles 5) := rfl

theorem exec_six (f : Fields) (s : State) :
    exec (.six f) s = .next ((s.store (effectiveAddress f s) (wordOfAddr (s.readX f.index))).addCycles 10) := rfl

/-! ### What writing an index register leaves -/

/-- Writing one index register, charged `c`, leaves every field but the index registers and `cycles`. -/
theorem writeX_addCycles_frame (s : State) (r : IndexReg) (v : Addr) (c : Nat) {t : State} (ht : t = (s.writeX r v).addCycles c) :
    t.a = s.a ∧ t.b = s.b ∧ t.pc = s.pc ∧ t.overflow = s.overflow ∧ SameWords s t ∧ SameControl s t ∧ Charged c s t := by
  subst ht
  simp [SameWords, SameControl, Charged]

/-- A write to `X[0]` is dropped (R104). -/
theorem sameIndex_writeX_x0 (s : State) (v : Addr) (c : Nat) : SameIndex s ((s.writeX .x0 v).addCycles c) := by
  intro r
  rw [State.addCycles_readX, State.writeX_x0]

/-! ### The word that SIX stores (R104, R202) -/

/-- `X[0]` reads as zero, so the two cases of R533 are one zero extension. -/
theorem wordOfAddr_readX (s : State) (r : IndexReg) :
    wordOfAddr (s.readX r) = if r = .x0 then 0#24 else BitVec.ofNat 24 (s.readX r).toNat := by
  rw [wordOfAddr_eq]
  split
  next hr => rw [hr, State.readX_x0]; rfl
  next => rfl

end Sys2Proof.Machine

namespace Sys2Proof.Proofs

open Sys2Proof Sys2Proof.Machine

/-- Settles O44: TAB writes `B`, IAB writes the pair from the values before either is written, so that a second IAB writes them back. -/
theorem tabCopiesAndIabInterchanges : Obligations.TabCopiesAndIabInterchanges := by
  intro f g s
  constructor
  · exact ⟨_, exec_tab f s, rfl, rfl, rfl, rfl, sameButRegisters_setB ..⟩
  · exact ⟨_, exec_iab f s, rfl, rfl, rfl, rfl, sameButRegisters_setA_setB .., _, exec_iab g _, rfl, rfl⟩

/-- Settles O45: LDX is one write of the index register that its selector names, and a write to `X[0]` is dropped. -/
theorem ldxLoadsTheSelectedIndexRegister : Obligations.LdxLoadsTheSelectedIndexRegister := by
  intro f s
  refine ⟨_, exec_ldx f s, fun hsel => ?selected, fun hzero => ?zero, fun r hr => ?others, writeX_addCycles_frame s _ _ 5 rfl⟩
  case selected => rw [State.addCycles_readX, State.readX_writeX_same, if_neg hsel, toNat_addressPart, operandM]
  case zero => rw [hzero]; exact sameIndex_writeX_x0 s _ 5
  case others => rw [State.addCycles_readX, s.readX_writeX_other _ r _ hr]

/-- Settles O46: SIX is one store, of the zero-extended index register, charged 10. -/
theorem sixStoresTheSelectedIndexRegister : Obligations.SixStoresTheSelectedIndexRegister := by
  intro f s hs
  rw [← wordOfAddr_readX]
  exact completesAsStore_of_exec_eq hs (exec_six f s)

end Sys2Proof.Proofs


/-! PROOFS. The family 46_shifts.md: ARS, ALS. -/

namespace Sys2Proof.Machine

open Sys2Proof

/-! ### The two instructions as state changes (R550, R551) -/

theorem exec_ars (f : Fields) (s : State) :
    exec (.ars f) s = .next ((s.setA (signMag (sgn s.a) (mag s.a >>> shiftCount f s))).addCycles (5 + shiftCount f s)) := rfl

theorem exec_als (f : Fields) (s : State) :
    exec (.als f) s = .next ((s.setA (signMag (sgn s.a) (mag s.a <<< shiftCount f s))).addCycles (5 + shiftCount f s)) := rfl

/-! ### The shift count and the shifted magnitude, as numbers -/

/-- The low five bits of the effective address are its remainder by 32 (R311). -/
theorem shiftCount_eq_mod (f : Fields) (s : State) : shiftCount f s = (effectiveAddress f s).toNat % 32 := by
  rw [shiftCount, BitVec.extractLsb'_toNat, Nat.shiftRight_zero]

theorem toNat_magnitude_shiftRight (m : Magnitude) (n : Nat) : (m >>> n).toNat = m.toNat / 2 ^ n := by
  rw [BitVec.toNat_ushiftRight, Nat.shiftRight_eq_div_pow]

/-- The bits shifted out at the left are those from 2^23 on. -/
theorem toNat_magnitude_shiftLeft (m : Magnitude) (n : Nat) : (m <<< n).toNat = m.toNat * 2 ^ n % 8388608 := by
  rw [BitVec.toNat_shiftLeft, Nat.shiftLeft_eq]

end Sys2Proof.Machine

namespace Sys2Proof.Proofs

open Sys2Proof Sys2Proof.Machine

/-- Settles O47: each shift writes `A` alone, rebuilt from its old sign and the shifted magnitude. -/
theorem shiftsMoveTheMagnitudeOnly : Obligations.ShiftsMoveTheMagnitudeOnly := by
  rintro f s _ rfl
  rw [← shiftCount_eq_mod]
  constructor
  · refine completesInA_of_exec_eq (exec_ars f s) ⟨sgn_signMag .., ?_⟩
    rw [mag_signMag, toNat_magnitude_shiftRight]
  · refine completesInA_of_exec_eq (exec_als f s) ⟨sgn_signMag .., ?_⟩
    rw [mag_signMag, toNat_magnitude_shiftLeft]

end Sys2Proof.Proofs


/-! PROOFS. The families 47_execute.md, 60_exceptions.md and 70_reset_and_hazards.md: XEC and its chains, the stops, the costs, the reset
state, and the word that an overflowing sum leaves. -/

namespace Sys2Proof.Machine

open Sys2Proof

/-! ### The words that a chain reaches (R570)

A chain writes no memory and no index register, so the address of each word it reaches is a function of the address before. -/

/-- The effective address of the word at `a`: where the chain goes on if that word is an XEC. -/
def nextInChain (s : State) (a : Addr) : Addr :=
  effectiveAddress (decode (s.load a)).fields s

/-- The address of the word that the chain of `i` reaches after `k + 1` XECs. -/
def chainAddr (i : Instr) (s : State) (k : Nat) : Addr :=
  (nextInChain s)^[k] (effectiveAddress i.fields s)

theorem chainAddr_succ (i : Instr) (s : State) (k : Nat) : chainAddr i s (k + 1) = nextInChain s (chainAddr i s k) :=
  Function.iterate_succ_apply' ..

/-- A chain of `k + 1` XECs has reached the word at its address `k`, with `PC` one past it. -/
theorem XecChain.at_chainAddr {limit : Option DepthLimit} {i j : Instr} {s u : State} {n : Nat} (h : XecChain limit i s n j u) :
    ∀ k, n = k + 1 → j = decode (s.load (chainAddr i s k)) ∧ u = s.setPc (chainAddr i s k + 1#15) := by
  induction h with
  | start => intro k hk; cases hk
  | link n f u hc _ ih =>
    intro k hk
    cases hk
    have here : effectiveAddress f u = chainAddr i s n := by
      cases n with
      | zero => cases hc; rfl
      | succ n =>
        obtain ⟨hword, hstate⟩ := ih n rfl
        rw [chainAddr_succ, nextInChain, ← hword, hstate, effectiveAddress_setPc]
        rfl
    rw [here, hc.same_but_pc]
    exact ⟨rfl, rfl⟩

/-- Every word that a chain has gone on from is an XEC. -/
theorem XecChain.opcode_of_lt {limit : Option DepthLimit} {i j : Instr} {s u : State} {n : Nat} (h : XecChain limit i s n j u) :
    ∀ k, k + 1 < n → (decode (s.load (chainAddr i s k))).opcode = 0o02#6 := by
  induction h with
  | start => intro k hk; cases hk
  | link n f u hc _ ih =>
    intro k hk
    obtain hlt | rfl := Nat.lt_succ_iff_lt_or_eq.1 hk
    · exact ih k hlt
    · rw [← (hc.at_chainAddr k rfl).1]
      rfl

/-- The pigeonhole: on a finite type, iteration that ever meets `P` meets it in fewer steps than the type has elements, since the values
before the first one in `P` are distinct. -/
theorem exists_iterate_lt_card {α : Type} [Fintype α] (g : α → α) (a : α) (P : α → Prop) (h : ∃ k, P (g^[k] a)) :
    ∃ k < Fintype.card α, P (g^[k] a) := by
  classical
  have distinct : ∀ m n, m < n → n ≤ Nat.find h → g^[m] a ≠ g^[n] a := by
    intro m n hmn hn heq
    have early : g^[Nat.find h] a = g^[Nat.find h - n + m] a := by
      rw [Function.iterate_add_apply, heq, ← Function.iterate_add_apply, Nat.sub_add_cancel hn]
    exact Nat.find_min h (m := Nat.find h - n + m) (by omega) (early ▸ Nat.find_spec h)
  have injective : Function.Injective fun k : Fin (Nat.find h + 1) => g^[k] a := by
    intro m n heq
    obtain hlt | heq' | hgt := lt_trichotomy m n
    · exact absurd heq (distinct m n hlt (by omega))
    · exact heq'
    · exact absurd heq.symm (distinct n m hgt (by omega))
  have bound := Fintype.card_le_of_injective _ injective
  rw [Fintype.card_fin] at bound
  exact ⟨Nat.find h, bound, Nat.find_spec h⟩

theorem card_addr : Fintype.card Addr = memWords := by
  simp [← FinEnum.card_eq_fintypeCard, memWords]

/-- An unlimited chain that ends meets no address twice, so it ends within as many XECs as there are words. -/
theorem ChainEndsIn.le_memWords {i j : Instr} {s u : State} {n : Nat} (h : ChainEndsIn none i s n j u) : n ≤ memWords := by
  obtain ⟨hc, hend⟩ := h
  cases n with
  | zero => exact Nat.zero_le _
  | succ n =>
    have last : (decode (s.load (chainAddr i s n))).opcode ≠ 0o02#6 := by
      rw [← (hc.at_chainAddr n rfl).1]
      intro hj
      obtain ⟨l, hl, -⟩ := hend hj
      cases hl
    obtain ⟨k, hk, hplain⟩ := exists_iterate_lt_card (nextInChain s) (effectiveAddress i.fields s)
      (fun a => (decode (s.load a)).opcode ≠ 0o02#6) ⟨n, last⟩
    have reached : ¬ k + 1 < n + 1 := fun hlt => hplain (hc.opcode_of_lt k hlt)
    rw [card_addr] at hk
    omega

/-- A limit bounds the executed XECs of a chain (R572). -/
theorem XecChain.le_levels {l : DepthLimit} {i j : Instr} {s u : State} {n : Nat} (h : XecChain (some l) i s n j u) :
    n ≤ l.levels := by
  cases h with
  | start => exact Nat.zero_le _
  | link n f u _ hl => exact hl l rfl

/-- The model's fuel is enough for every chain that ends. -/
theorem ChainEndsIn.le_xecFuel {limit : Option DepthLimit} {i j : Instr} {s u : State} {n : Nat} (h : ChainEndsIn limit i s n j u) :
    n ≤ xecFuel limit := by
  cases limit with
  | none => exact h.le_memWords
  | some l => exact h.1.le_levels.trans (Nat.le_add_left _ _)

/-! ### The rule of an instruction is that of the last word of its chain -/

/-- The rule has the effect of the chain's last word, at 5 more cost for each XEC. -/
theorem ruleOf_xecRule_of_chainEndsIn {limit : Option DepthLimit} {i j : Instr} {s u : State} {n : Nat}
    (h : ChainEndsIn limit i s n j u) :
    ∃ e : Effect, (j.opcode ≠ 0o02#6 ∧ instrRule j u = some e ∨ j.opcode = 0o02#6 ∧ e = xecLimitRule u) ∧
      ruleOf (xecRule limit) i s = some (e.addCost (5 * n)) := by
  obtain ⟨e, hj, he⟩ := ruleOf_chain_end h
  have enough : xecFuel limit + 1 - n + n = xecFuel limit + 1 := Nat.sub_add_cancel (Nat.le_succ_of_le h.le_xecFuel)
  have found := he (xecFuel limit + 1 - n)
  rw [enough, ← ruleOf_xecRule] at found
  exact ⟨e, hj, found⟩

/-- The last word is no XEC: its own effect. -/
theorem ruleOf_xecRule_of_plain {limit : Option DepthLimit} {i j : Instr} {s u : State} {n : Nat} (h : ChainEndsIn limit i s n j u)
    (hj : j.opcode ≠ 0o02#6) :
    ∃ e : Effect, instrRule j u = some e ∧ ruleOf (xecRule limit) i s = some (e.addCost (5 * n)) := by
  obtain ⟨e, ⟨-, he⟩ | ⟨hx, -⟩, hi⟩ := ruleOf_xecRule_of_chainEndsIn h
  · exact ⟨e, he, hi⟩
  · exact absurd hx hj

/-- The last word is the XEC that the limit stops: the depth-limit outcome (R572). -/
theorem ruleOf_xecRule_of_stopped {limit : Option DepthLimit} {i j : Instr} {s u : State} {n : Nat} (h : ChainEndsIn limit i s n j u)
    (hj : j.opcode = 0o02#6) : ruleOf (xecRule limit) i s = some ((xecLimitRule u).addCost (5 * n)) := by
  obtain ⟨e, ⟨hp, -⟩ | ⟨-, rfl⟩, hi⟩ := ruleOf_xecRule_of_chainEndsIn h
  · exact absurd hj hp
  · exact hi

/-- The rule has an effect exactly if the chain ends. -/
theorem exists_ruleOf_xecRule_iff (limit : Option DepthLimit) (i : Instr) (s : State) :
    (∃ e : Effect, ruleOf (xecRule limit) i s = some e) ↔ ∃ (n : Nat) (j : Instr) (u : State), ChainEndsIn limit i s n j u := by
  constructor
  · rintro ⟨e, he⟩
    rw [ruleOf_xecRule] at he
    exact chain_of_rule limit i s _ 0 i s e .start he
  · rintro ⟨n, j, u, h⟩
    obtain ⟨e, -, he⟩ := ruleOf_xecRule_of_chainEndsIn h
    exact ⟨_, he⟩

/-- The rule has no effect exactly if the chain has no last word. -/
theorem xecRule_eq_none_iff (limit : Option DepthLimit) (f : Fields) (s : State) :
    xecRule limit f s = none ↔ ¬ ∃ (n : Nat) (j : Instr) (u : State), ChainEndsIn limit (.xec f) s n j u := by
  rw [← exists_ruleOf_xecRule_iff, ← Option.ne_none_iff_exists', not_not]
  rfl

/-- Following an unlimited chain with any fuel finds no end exactly if the chain has no last word. -/
theorem neverEnds_none_iff (f : Fields) (s : State) :
    NeverEnds none f s ↔ ¬ ∃ (n : Nat) (j : Instr) (u : State), ChainEndsIn none (.xec f) s n j u := by
  have followed (fuel : Nat) :
      executeTarget (nestedXec none fuel 1) f s = ruleOf (nestedXec none (fuel + 1) 0) (.xec f) s :=
    (nestedXec_succ none fuel 0 f s rfl).symm
  constructor
  · rintro never ⟨n, j, u, h⟩
    obtain ⟨e, -, he⟩ := ruleOf_chain_end h
    have found := he 1
    rw [Nat.add_comm, ← followed, never n] at found
    cases found
  · intro noEnd fuel
    rw [followed, Option.eq_none_iff_forall_ne_some]
    exact fun e he => noEnd (chain_of_rule none (.xec f) s _ 0 _ s e .start he)

/-- Within a limit of `L`, fuel for the levels that are left finds the end of every chain (R572). -/
theorem exists_nestedXec_some (l : DepthLimit) :
    ∀ (fuel depth : Nat) (f : Fields) (s : State), l.levels ≤ fuel + depth → ∃ e : Effect, nestedXec (some l) fuel depth f s = some e := by
  intro fuel
  induction fuel with
  | zero =>
    intro depth f s h
    have stopped : exceedsLimit (some l) depth = true := decide_eq_true (by omega)
    exact ⟨_, nestedXec_limit _ _ _ _ _ stopped⟩
  | succ fuel ih =>
    intro depth f s h
    cases hx : exceedsLimit (some l) depth with
    | true => exact ⟨_, nestedXec_limit _ _ _ _ _ hx⟩
    | false =>
      rw [nestedXec_succ _ _ _ _ _ hx]
      obtain ⟨g, hg⟩ | hg := xec_or_not (decode (s.load (effectiveAddress f s)))
      · obtain ⟨e, he⟩ := ih (depth + 1) g (s.setPc (effectiveAddress f s + 1#15)) (by omega)
        exact ⟨e.addCost 5, by rw [executeTarget_xec _ f g s hg, he]; rfl⟩
      · obtain ⟨e, -, he⟩ := executeTarget_plain (nestedXec (some l) fuel (depth + 1)) f s hg
        exact ⟨_, he⟩

theorem exists_xecRule_some (l : DepthLimit) (f : Fields) (s : State) : ∃ e : Effect, xecRule (some l) f s = some e := by
  rw [xecRule_eq_nestedXec]
  exact exists_nestedXec_some l _ 0 f s (by simp only [xecFuel]; omega)

/-- Only without a limit has the rule of XEC no effect, and then its chain never ends. -/
theorem neverEnds_of_xecRule_eq_none {limit : Option DepthLimit} {f : Fields} {s : State} (h : xecRule limit f s = none) :
    limit = none ∧ NeverEnds none f s := by
  cases limit with
  | none => exact ⟨rfl, (neverEnds_none_iff f s).2 ((xecRule_eq_none_iff none f s).1 h)⟩
  | some l =>
    obtain ⟨e, he⟩ := exists_xecRule_some l f s
    rw [h] at he
    cases he

/-! ### XEC as an instruction (R570, R402) -/

/-- An instruction that is no XEC completes. -/
theorem exec_plain_completes {j : Instr} (hj : j.opcode ≠ 0o02#6) (s : State) : ∃ t : State, exec j s = .next t := by
  obtain ⟨e, he⟩ := ruleOf_plain_some (xecRule Config.xecDepthLimit) j s hj
  exact ⟨e.commit, (exec_next_iff ..).2 ⟨e, he, rfl⟩⟩

/-- `exec` answers what the last word of the chain answers where it is met, charged with 5 more for each XEC. -/
theorem exec_of_chainEndsIn {i j : Instr} {s t u : State} {n : Nat} (h : ChainEndsIn Config.xecDepthLimit i s n j u)
    (hj : j.opcode ≠ 0o02#6) (ht : exec j u = .next t) : exec i s = .next (t.addCycles (5 * n)) := by
  obtain ⟨e, he, hi⟩ := ruleOf_xecRule_of_plain h hj
  obtain ⟨e', he', rfl⟩ := (exec_next_iff j u t).1 ht
  obtain rfl : e = e' := Option.some.inj (he.symm.trans he')
  exact (exec_next_iff i s _).2 ⟨_, hi, Effect.commit_addCost e (5 * n)⟩

/-- Charging before or after an instruction is the same, since none reads `cycles` (R109). -/
theorem exec_addCycles {j : Instr} {u t : State} (c : Nat) (h : exec j u = .next t) :
    exec j (u.addCycles c) = .next (t.addCycles c) :=
  (unseen_addToCycles (BitVec.ofNat 64 c)).exec h

/-- The same, with the charge made before the last word runs. -/
theorem exec_eq_of_chainEndsIn {i j : Instr} {s u : State} {n : Nat} (h : ChainEndsIn Config.xecDepthLimit i s n j u)
    (hj : j.opcode ≠ 0o02#6) : exec i s = exec j (u.addCycles (5 * n)) := by
  obtain ⟨t, ht⟩ := exec_plain_completes hj u
  rw [exec_of_chainEndsIn h hj ht, exec_addCycles _ ht]

/-- XEC of a word that is no XEC is a chain of one. -/
theorem chainEndsIn_one {f : Fields} {s : State} {j : Instr} (limit : Option DepthLimit)
    (hd : decode (s.load (effectiveAddress f s)) = j) (hj : j.opcode ≠ 0o02#6) :
    ChainEndsIn limit (.xec f) s 1 j (s.setPc (effectiveAddress f s + 1#15)) := by
  subst hd
  exact ⟨XecChain.first limit f s, fun hx => absurd hx hj⟩

/-- What the target of an XEC answers at `ea + 1`, the XEC answers, at 5 more cost. -/
theorem exec_xec_of_target {f : Fields} {s t : State} {j : Instr} (hd : decode (s.load (effectiveAddress f s)) = j)
    (ht : exec j (s.setPc (effectiveAddress f s + 1#15)) = .next t) (hj : j.opcode ≠ 0o02#6 := by simp [Instr.opcode]) :
    exec (.xec f) s = .next (t.addCycles 5) :=
  exec_of_chainEndsIn (chainEndsIn_one _ hd hj) hj ht

theorem charged_addCycles {s t : State} (h : t.cycles = s.cycles) (c : Nat) : Charged c s (t.addCycles c) := by
  rw [Charged, State.addCycles_cycles, h]

/-- Costs add up. -/
theorem charged_add {s t : State} {c : Nat} (h : Charged c s t) (d : Nat) : Charged (d + c) s (t.addCycles d) := by
  rw [Charged, State.addCycles_cycles, h, add_assoc, ← BitVec.ofNat_add, Nat.add_comm]

/-- An XEC of a jump or a skip leaves `PC` at the jump's target, or at `ea + 1` where it is not taken. -/
theorem xecLeavesPc_of_completesAsJump {f : Fields} {s : State} {j : Instr} {taken : Bool} {target : Addr} {c : Nat}
    (hd : decode (s.load (effectiveAddress f s)) = j)
    (h : CompletesAsJump j taken target c (s.setPc (effectiveAddress f s + 1#15)))
    (hj : j.opcode ≠ 0o02#6 := by simp [Instr.opcode]) :
    XecLeavesPc f s (if taken then target else effectiveAddress f s + 1#15) (5 + c) := by
  obtain ⟨t, ht, hpc, -, -, -, -, -, -, cost⟩ := h
  exact ⟨_, exec_xec_of_target hd ht hj, hpc, charged_add cost 5⟩

/-- The same where the test is a proposition. -/
theorem xecLeavesPc_of_completesAsJump_decide {f : Fields} {s : State} {j : Instr} {test : Prop} [Decidable test] {target : Addr}
    {c : Nat} (hd : decode (s.load (effectiveAddress f s)) = j)
    (h : CompletesAsJump j (decide test) target c (s.setPc (effectiveAddress f s + 1#15)))
    (hj : j.opcode ≠ 0o02#6 := by simp [Instr.opcode]) :
    XecLeavesPc f s (if test then target else effectiveAddress f s + 1#15) (5 + c) := by
  rw [← if_congr decide_eq_true_iff rfl rfl]
  exact xecLeavesPc_of_completesAsJump hd h hj

/-! ### The instructions that leave `PC` alone -/

/-- `PC` is written by HLT, the skips, the jumps and JSL alone (R105); NOP counts among them, as a jump to where `PC` is. -/
theorem Leaves.pc_eq {i : Instr} {s t : State} (h : Leaves i s t)
    (hi : i.opcode ∉ [0o00#6, 0o12#6, 0o13#6, 0o27#6, 0o70#6, 0o71#6, 0o72#6, 0o73#6, 0o74#6, 0o77#6]) : t.pc = s.pc := by
  cases h with
  | pcAt ho | halted ho | linked ho => simp_all
  | _ => simp [State.takeSum]

/-- The 18 opcodes whose instructions leave `PC` alone. -/
def opcodesKeepingPc : List Opcode :=
  [0o77#6, 0o24#6, 0o23#6, 0o05#6, 0o03#6, 0o10#6, 0o11#6, 0o15#6, 0o16#6, 0o17#6, 0o34#6, 0o35#6, 0o40#6, 0o41#6, 0o55#6, 0o57#6,
    0o56#6, 0o66#6]

theorem not_mem_pcWriters_of_mem_opcodesKeepingPc : ∀ o ∈ opcodesKeepingPc, o ≠ 0o77#6 →
    o ∉ [0o00#6, 0o12#6, 0o13#6, 0o27#6, 0o70#6, 0o71#6, 0o72#6, 0o73#6, 0o74#6, 0o77#6] := by decide

theorem exec_pc_of_mem_opcodesKeepingPc {i : Instr} {s t : State} (hi : i.opcode ∈ opcodesKeepingPc) (h : exec i s = .next t) :
    t.pc = s.pc := by
  by_cases hnop : i.opcode = 0o77#6
  · cases i with
    | nop f => cases h; rfl
    | _ => simp [Instr.opcode] at hnop
  · obtain ⟨e, he, rfl⟩ := (exec_next_iff i s t).1 h
    have plain : i.opcode ≠ 0o02#6 := fun hx => absurd (hx ▸ hi) (by decide)
    exact (leaves_of_ruleOf plain he).pc_eq (not_mem_pcWriters_of_mem_opcodesKeepingPc _ hi hnop)

/-! ### What an instruction charges (R402, R720) -/

/-- An instruction charges the cost of its rule, and nothing else moves `cycles`. -/
theorem exec_charged {i : Instr} {s : State} {e : Effect} {c : Nat} (h : instrRule i s = some e) (hc : e.cost = c) :
    ∃ t : State, exec i s = .next t ∧ Charged c s t := by
  subst hc
  exact ⟨e.commit, (exec_next_iff ..).2 ⟨e, h, rfl⟩, charged_addCycles (instrRule_cycles h) e.cost⟩

/-! ### An XEC of itself (R571 (h)) -/

section SelfReferring

variable {f g : Fields} {s : State} (hself : decode (s.load (effectiveAddress f s)) = .xec g)
  (hea : effectiveAddress g s = effectiveAddress f s)
include hself hea

/-- Every address of the chain is that of the self-referring word. -/
theorem chainAddr_of_self (k : Nat) : chainAddr (.xec f) s k = effectiveAddress f s := by
  refine Function.iterate_fixed ?_ k
  show nextInChain s (effectiveAddress f s) = effectiveAddress f s
  rw [nextInChain, hself]
  exact hea

/-- Every word of the chain is an XEC. -/
theorem XecChain.opcode_of_self {limit : Option DepthLimit} {j : Instr} {u : State} {n : Nat} (h : XecChain limit (.xec f) s n j u) :
    j.opcode = 0o02#6 := by
  cases n with
  | zero => cases h; rfl
  | succ n =>
    rw [(h.at_chainAddr n rfl).1, chainAddr_of_self hself hea, hself]
    rfl

/-- The chain goes on as far as a limit lets it. -/
theorem xecChain_of_self (limit : Option DepthLimit) (n : Nat) (hn : ∀ l : DepthLimit, limit = some l → n + 1 ≤ l.levels) :
    XecChain limit (.xec f) s (n + 1) (.xec g) (s.setPc (effectiveAddress f s + 1#15)) := by
  induction n with
  | zero => exact hself ▸ XecChain.first limit f s
  | succ n ih =>
    have more := XecChain.link _ _ _ (ih fun l hl => Nat.le_of_succ_le (hn l hl)) hn
    rwa [effectiveAddress_setPc, State.setPc_load, hea, hself] at more

theorem chainEndsIn_of_self (l : DepthLimit) :
    ChainEndsIn (some l) (.xec f) s l.levels (.xec g) (s.setPc (effectiveAddress f s + 1#15)) := by
  have levels : l.levels - 1 + 1 = l.levels := Nat.sub_add_cancel l.positive
  refine ⟨?_, fun _ => ⟨l, rfl, Nat.lt_succ_self _⟩⟩
  have chain := xecChain_of_self hself hea (some l) (l.levels - 1) fun l' hl => by cases hl; exact levels.le
  rwa [levels] at chain

end SelfReferring

/-! ### The word that an overflowing sum leaves (log 7) -/

theorem mag_fromSigned (v : Int) : (mag (fromSigned v)).toNat = v.natAbs % 8388608 := by
  rw [fromSigned, mag_signMag, BitVec.toNat_ofNat]

theorem sgn_fromSigned_iff (v : Int) : sgn (fromSigned v) = true ↔ v < 0 := by
  rw [fromSigned, sgn_signMag, decide_eq_true_iff]

end Sys2Proof.Machine

namespace Sys2Proof.Proofs

open Sys2Proof Sys2Proof.Machine

/-- Settles O59: the rule is followed to the last word of the chain, for which the model's fuel is enough; charging before that word runs
is the same as after it. -/
theorem xecChainHasTheOutcomeOfItsLastWord : Obligations.XecChainHasTheOutcomeOfItsLastWord := by
  intro i s
  refine ⟨fun limit => ⟨exists_ruleOf_xecRule_iff limit i s, fun n j u h => ⟨h.1.same_but_pc, fun hj => ?plain, fun hj => ?stopped⟩⟩,
    fun e he => (exec_next_iff ..).2 ⟨e, he, rfl⟩, fun n j u h hj => ?charged⟩
  case plain =>
    obtain ⟨e, he, hi⟩ := ruleOf_xecRule_of_plain h hj
    exact ⟨e, he, hi⟩
  case stopped =>
    rw [ruleOf_xecRule_of_stopped h hj, h.1.same_but_pc]
    rfl
  case charged =>
    rw [exec_eq_of_chainEndsIn h hj, h.1.same_but_pc]
    rfl

/-- Settles O51: the rule has an effect exactly if the chain ends, whatever the fuel, and under a limit every chain ends. -/
theorem stuckXecReallyNeverEnds : Obligations.StuckXecReallyNeverEnds :=
  fun f s => ⟨fun _ h => neverEnds_of_xecRule_eq_none h, neverEnds_none_iff f s, exec_fault_iff (.xec f) s,
    fun e he => (exec_next_iff ..).2 ⟨e, he, rfl⟩⟩

/-- Settles O16: a rule without an effect is that of an XEC, and its chain never ends (O51). -/
theorem onlyAnEndlessXecStops : Obligations.OnlyAnEndlessXecStops := by
  intro i s
  obtain ⟨f, rfl⟩ | hi := xec_or_not i
  · cases h : xecRule Config.xecDepthLimit f s with
    | none =>
      obtain ⟨unlimited, never⟩ := neverEnds_of_xecRule_eq_none h
      exact .inr ⟨rfl, unlimited, never, (exec_fault_iff (.xec f) s).2 h⟩
    | some e => exact .inl ⟨_, (exec_next_iff (.xec f) s _).2 ⟨e, h, rfl⟩⟩
  · exact .inl (exec_plain_completes hi s)

/-- Settles O52: the chain stays at one word, an XEC, so without a limit it has no last word, and a limit stops it after `L` XECs. -/
theorem selfReferringXecIsStuck : Obligations.SelfReferringXecIsStuck := by
  intro f g s hself hea
  have noEnd : ¬ ∃ (n : Nat) (j : Instr) (u : State), ChainEndsIn none (.xec f) s n j u := by
    rintro ⟨n, j, u, hc, hend⟩
    obtain ⟨l, hl, -⟩ := hend (hc.opcode_of_self hself hea)
    cases hl
  refine ⟨(xecRule_eq_none_iff none f s).2 noEnd, (neverEnds_none_iff f s).2 noEnd, fun l => ?_⟩
  have stopped := ruleOf_xecRule_of_stopped (chainEndsIn_of_self hself hea l) rfl
  have fetched : (s.setPc (effectiveAddress f s + 1#15)).fetchAddr = effectiveAddress f s := by simp [State.fetchAddr]
  rw [xecLimitRule, State.decodeError, fetched] at stopped
  exact stopped

/-- Settles O50: the limit's own case of the rule; fuel for `L` levels; and a chain of two XECs. -/
theorem nestedXecObeysTheDepthLimit : Obligations.NestedXecObeysTheDepthLimit := by
  refine ⟨fun l fuel d f s hd => nestedXec_limit _ _ _ _ _ (decide_eq_true hd), exists_xecRule_some, ?_⟩
  intro limit f g s j e hlimit hf hg hj he
  have first : XecChain limit (.xec f) s 1 (.xec g) (s.setPc (effectiveAddress f s + 1#15)) := hf ▸ XecChain.first limit f s
  have second := XecChain.link _ _ _ first hlimit
  rw [effectiveAddress_setPc, State.setPc_load, hg] at second
  obtain ⟨e', he', hi⟩ := ruleOf_xecRule_of_plain ⟨second, fun hx => absurd hx hj⟩ hj
  obtain rfl : e' = e := Option.some.inj (he'.symm.trans he)
  exact hi

/-- Settles O48: XEC of a word that is no XEC is a chain of one. -/
theorem xecRunsTheWordAtItsEffectiveAddress : Obligations.XecRunsTheWordAtItsEffectiveAddress := by
  intro f s j hd hj
  obtain ⟨t, ht⟩ := exec_plain_completes hj (s.setPc (effectiveAddress f s + 1#15))
  have answers := exec_eq_of_chainEndsIn (chainEndsIn_one Config.xecDepthLimit hd hj) hj
  exact ⟨answers, _, exec_xec_of_target hd ht hj⟩

/-- Settles O49: the target answers at `ea + 1` what its own rule says (O40, O41, O43 for the jumps, JSL and the skips), and the XEC answers
that at 5 more cost. -/
theorem xecDoesNotReturn : Obligations.XecDoesNotReturn := by
  rintro f s _ j rfl hd
  have jumps (g : Fields) := jumpsTestTheConditionTheyName g (s.setPc (effectiveAddress f s + 1#15))
  have skips (g : Fields) := skipsCompareAsTheirRulesSay g (s.setPc (effectiveAddress f s + 1#15))
  have twoOn : effectiveAddress f s + 1#15 + 1#15 = effectiveAddress f s + 2#15 := add_assoc ..
  simp only [effectiveAddress_setPc, operandM_setPc, State.setPc_a, State.setPc_pc, twoOn] at jumps skips
  refine ⟨fun hj => ?keeping, ?skg, ?skn, ?jmp, ?jpl, ?jmi, ?jze, ?jnz, ?jsl, ?hlt, fun hj => ?unimplemented⟩
  case keeping =>
    have plain : j.opcode ≠ 0o02#6 := fun hx => absurd (hx ▸ hj) (by decide)
    obtain ⟨t, ht⟩ := exec_plain_completes plain (s.setPc (effectiveAddress f s + 1#15))
    exact ⟨_, exec_xec_of_target hd ht plain, exec_pc_of_mem_opcodesKeepingPc hj ht⟩
  case skg =>
    rintro g rfl
    exact xecLeavesPc_of_completesAsJump_decide hd (skips g).1
  case skn =>
    rintro g rfl
    exact xecLeavesPc_of_completesAsJump_decide hd (skips g).2
  case jmp =>
    rintro g rfl
    obtain ⟨h, -⟩ := jumps g
    exact xecLeavesPc_of_completesAsJump hd h
  case jpl =>
    rintro g rfl
    obtain ⟨-, h, -⟩ := jumps g
    exact xecLeavesPc_of_completesAsJump_decide hd h
  case jmi =>
    rintro g rfl
    obtain ⟨-, -, h, -⟩ := jumps g
    exact xecLeavesPc_of_completesAsJump hd h
  case jze =>
    rintro g rfl
    obtain ⟨-, -, -, h, -⟩ := jumps g
    exact xecLeavesPc_of_completesAsJump_decide hd h
  case jnz =>
    rintro g rfl
    obtain ⟨-, -, -, -, h⟩ := jumps g
    exact xecLeavesPc_of_completesAsJump_decide hd h
  case jsl =>
    rintro g rfl hs
    obtain ⟨t, ht, link, hpc, -, -, -, -, -, -, cost⟩ :=
      jslStoresTheReturnAddressAndJumpsPastIt g (s.setPc (effectiveAddress f s + 1#15)) hs
    exact ⟨_, exec_xec_of_target hd ht, link, hpc, charged_add cost 5⟩
  case hlt =>
    rintro g rfl
    exact ⟨_, exec_xec_of_target hd (exec_hlt g _), by simp, rfl, charged_add (charged_addCycles rfl 5) 5⟩
  case unimplemented =>
    have plain : j.opcode ≠ 0o02#6 := fun hx => absurd (hx ▸ hj) (by decide)
    exact ⟨_, exec_xec_of_target hd (exec_of_unimplemented _ hj) plain, rfl, rfl, by simp,
      charged_add (charged_addCycles rfl Config.costUnimpl) 5⟩

/-- Settles O53: each cost is that of the instruction's rule; an XEC adds 5 to its target's. -/
theorem costTable : Obligations.CostTable := by
  intro f s
  refine ⟨fun i hi => ?five, fun i hi => ?six, fun i hi => ?ten, exec_charged rfl rfl, exec_charged rfl rfl,
    fun i hi => ?shifts, fun i hi => ?unimplemented, fun j c hd hj hc => ?xec⟩
  case unimplemented =>
    have unimplemented : i.opcode ∈ unimplementedOpcodes := List.mem_map_of_mem hi
    exact exec_charged (ruleOf_of_unimplemented _ s unimplemented) rfl
  case xec =>
    obtain ⟨t, ht⟩ := exec_plain_completes hj (s.setPc (effectiveAddress f s + 1#15))
    exact ⟨_, exec_xec_of_target hd ht hj, charged_add (hc t ht) 5⟩
  case shifts =>
    rw [← shiftCount_eq_mod]
    simp only [List.mem_cons, List.not_mem_nil, or_false] at hi
    rcases hi with rfl | rfl <;> exact exec_charged rfl rfl
  all_goals simp only [List.mem_cons, List.not_mem_nil, or_false] at hi
  case five => rcases hi with rfl | rfl | rfl | rfl | rfl <;> exact exec_charged rfl rfl
  case six => rcases hi with rfl | rfl | rfl | rfl <;> exact exec_charged rfl rfl
  case ten =>
    rcases hi with rfl | rfl | rfl | rfl | rfl | rfl | rfl | rfl | rfl | rfl | rfl | rfl | rfl | rfl <;> exact exec_charged rfl rfl

/-- Settles O33: ADD and SUB write the sign and the low magnitude bits of their exact result, in range or not. -/
theorem overflowingSumKeepsSignAndLowMagnitude : Obligations.OverflowingSumKeepsSignAndLowMagnitude := by
  rintro f s t i v (⟨rfl, rfl⟩ | ⟨rfl, rfl⟩) _ h
  · rw [exec_add] at h
    cases h
    exact ⟨sgn_fromSigned_iff _, mag_fromSigned _⟩
  · rw [exec_sub] at h
    cases h
    exact ⟨sgn_fromSigned_iff _, mag_fromSigned _⟩

/-- Settles O12: the state after INIT is the reset state but for the events, and RESET differs from it in memory alone. -/
theorem resetStateIsAllZero : Obligations.ResetStateIsAllZero := by
  have zero : AllZeroButMemory State.reset := ⟨rfl, rfl, fun r => by cases r <;> rfl, rfl, rfl, rfl, rfl, rfl⟩
  exact ⟨zero, fun _ => rfl, fun s => ⟨⟨zero, fun _ => rfl⟩, zero, fun _ => rfl⟩⟩

end Sys2Proof.Proofs
